-- ==== Sys2Proof/Word.lean ====
section
/-!
DEFINITION. The word types of the part (00_scope.md, Widths; chapter 10, field types) and the
triple of components (active, lagging, leading) that totals, sums and credits share.
-/

namespace Sys2Proof

/-- One byte of a message, a link frame or an SPI transaction. -/
abbrev Byte := BitVec 8

/-- A two-byte quantity: a CRC, a check code, a mask, a subinterval length operand. -/
abbrev Half := BitVec 16

/-- A four-byte quantity: account numbers, demands, totals, boundary numbers, counts. -/
abbrev Word := BitVec 32

/-- A six-byte quantity: energies, excess, sums, credits, net values, meter identities. -/
abbrev Quantity := BitVec 48

/-- The three components a meter counts: active, lagging reactive, leading reactive. -/
structure Triple (α : Type) where
  active : α
  lagging : α
  leading : α
  deriving DecidableEq, Repr, Inhabited

/-- Apply one function to each component. -/
def Triple.map {α β : Type} (f : α → β) (t : Triple α) : Triple β :=
  ⟨f t.active, f t.lagging, f t.leading⟩

/-- Combine two triples component by component. -/
def Triple.zip {α β γ : Type} (f : α → β → γ) (t : Triple α) (u : Triple β) : Triple γ :=
  ⟨f t.active u.active, f t.lagging u.lagging, f t.leading u.leading⟩

/-- The three components hold one value. -/
def Triple.same {α : Type} (a : α) : Triple α := ⟨a, a, a⟩

/-- Some component satisfies the test. -/
def Triple.any {α : Type} (p : α → Bool) (t : Triple α) : Bool :=
  p t.active || p t.lagging || p t.leading

end Sys2Proof
end

