-- ==== Sys2Proof/Syntax.lean ====
section
/-!
DEFINITION. The commands of the block: one constructor per row of spec/opcode_table.json.
A request command carries its operands at the byte widths of the operand table of chapter 10 and
in any value, so that each refusal of a rule can be met; an event carries where it happens.
-/

namespace Sys2Proof

/-- One feed term place of a contract image: a channel byte, then a sign byte (R182). -/
structure FeedPlace where
  channel : Byte
  sign : Byte
  deriving DecidableEq, Repr

/-- The 33 bytes of the contract image, field by field in table order (R2, R182). -/
structure ContractImage where
  account : Word
  schedule : Byte
  feedCount : Byte
  place0 : FeedPlace
  place1 : FeedPlace
  place2 : FeedPlace
  place3 : FeedPlace
  place4 : FeedPlace
  place5 : FeedPlace
  windowLength : Byte
  contractDemand : Word
  minimumBilling : Word
  allowance : Half
  peaksAveraged : Byte
  onePerDay : Byte
  ratchetPercent : Byte
  ratchetPeriods : Byte
  deriving DecidableEq, Repr

/-- An unused feed term place. -/
def FeedPlace.zero : FeedPlace := ⟨0, 0⟩

/-- A contract part of zeros (R18). -/
def ContractImage.zero : ContractImage :=
  { account := 0, schedule := 0, feedCount := 0,
    place0 := FeedPlace.zero, place1 := FeedPlace.zero, place2 := FeedPlace.zero,
    place3 := FeedPlace.zero, place4 := FeedPlace.zero, place5 := FeedPlace.zero,
    windowLength := 0, contractDemand := 0, minimumBilling := 0, allowance := 0,
    peaksAveraged := 0, onePerDay := 0, ratchetPercent := 0, ratchetPeriods := 0 }

/-- The six bytes of a calendar time: year minus 2000, month, day, hour, minute, second (R182). -/
structure TimeImage where
  year : Byte
  month : Byte
  day : Byte
  hour : Byte
  minute : Byte
  second : Byte
  deriving DecidableEq, Repr

/-- A character on a receive line, and whether its stop element was good (R59). -/
structure LineChar where
  char : Byte
  goodStop : Bool
  deriving DecidableEq, Repr

/-- The commands, one per row of the table, in the table's order. -/
inductive Instr where
  /-- A SEND transaction with the message bytes after its transaction code (R174). -/
  | sendTransaction (message : List Byte)
  /-- A READ transaction in which so many whole bytes are clocked after the code (R177). -/
  | readTransaction (clocked : Nat)
  /-- Any other transaction: its first byte, or none if select is released before it is
  complete, and the number of later bytes (R172). -/
  | voidTransaction (code : Option Byte) (later : Nat)
  /-- The dispatched command has acted and the response is composed (R176). -/
  | executionEnds
  | readIdentity
  | engineClear
  | setClock (time : TimeImage) (source : Byte)
  | readClock
  | setSubinterval (length : Half)
  /-- The slot byte, then the 24 to 108 bytes of the schedule (R51). -/
  | loadSchedule (slot : Byte) (body : List Byte)
  | readSchedule (slot : Byte)
  /-- The count byte, then the bytes of the dates (R53). -/
  | loadHolidays (count : Byte) (body : List Byte)
  | readHolidays
  | setHoldTime (seconds : Byte)
  | readLinks
  | registerMeter (channel : Byte) (identity : Quantity) (ratedPower : Word)
  | releaseMeter (channel : Byte)
  | setChannelPolicy (channel policy timeout : Byte) (ratedPower : Word)
  | readChannel (channel : Byte)
  | openAccount (image : ContractImage)
  | listAccounts (start : Word)
  | readAccount (account : Word)
  | readRegisters (account : Word) (period : Byte)
  | readPeaks (account : Word)
  | readSweep
  | closePeriod (account : Word)
  | fetchClosed (account : Word)
  | stageAmendment (account : Word) (image : ContractImage)
  | commitAmendment (account : Word) (mode : Byte)
  | withdrawAmendment (account : Word)
  | suspendAccount (account : Word)
  | resumeAccount (account : Word)
  | retireAccount (account : Word)
  | takeAttention
  /-- The set of kinds and the optional source number (R168). -/
  | dismiss (kinds : Half) (source : Option Byte)
  | setAttentionMask (mask : Half)
  | readAttention (kind : Byte)
  | powerOn
  | mainPowerLoss
  | backupSupplyLoss
  | resetPinAsserted
  | resetPinReleased
  /-- The slot whose storage is disturbed, and what its contract part and check code then
  hold (R21). -/
  | storageDisturbance (slot : Fin 32) (contract : ContractImage) (checkCode : Half)
  | secondPulseEdge
  | internalSecond
  | pulseLossFallback
  /-- The outstanding characters of a frame, the first and the rest, arrive one after another, each
  with its stop element; the frame ends with its 25th (R59, R60, log 6). -/
  | frameReceived (link : Fin 4) (first : LineChar) (rest : List LineChar)
  | idleGap (link : Fin 4)
  | lineReturnsToMarking (link : Fin 4)
  | lineBreak (link : Fin 4)
  | transmissionComplete (link : Fin 4)
  | refreshPoint (link : Fin 4)
  | holdExpiry (link : Fin 4)
  | presenceTimerExpiry (channel : Fin 16)
  | takeFrameEntry
  | takeMarker
  | sweepVisit
  /-- A character and whether its stop element was good (R59). -/
  | characterReceived (link : Fin 4) (char : Byte) (goodStop : Bool)
  | outageSecondAdvance
  deriving DecidableEq, Repr

end Sys2Proof
end

