-- ==== Sys2Proof/Decode.lean ====
section
/-!
DEFINITION. Byte order (R182), the contract image as bytes, and the decoding of a request's
command code and operands (R175 checks 3 and 4, R182, the command code table of 10.5).
The opcode table gives no row any bits, so no word of the host's spells a command.
-/

namespace Sys2Proof

/-- R182: two bytes, most significant first. -/
def halfBytes (h : Half) : List Byte := [h.extractLsb' 8 8, h.extractLsb' 0 8]

/-- R182: four bytes, most significant first. -/
def wordBytes (w : Word) : List Byte :=
  [w.extractLsb' 24 8, w.extractLsb' 16 8, w.extractLsb' 8 8, w.extractLsb' 0 8]

/-- R182: six bytes, most significant first. -/
def quantityBytes (q : Quantity) : List Byte :=
  [q.extractLsb' 40 8, q.extractLsb' 32 8, q.extractLsb' 24 8, q.extractLsb' 16 8,
   q.extractLsb' 8 8, q.extractLsb' 0 8]

/-- The number two bytes carry. -/
def halfOf (a b : Byte) : Half := a ++ b

/-- The number four bytes carry. -/
def wordOf (a b c d : Byte) : Word := a ++ b ++ c ++ d

/-- The number six bytes carry. -/
def quantityOf (a b c d e f : Byte) : Quantity := a ++ b ++ c ++ d ++ e ++ f

/-- The six feed term places of an image, in order. -/
def ContractImage.places (c : ContractImage) : List FeedPlace :=
  [c.place0, c.place1, c.place2, c.place3, c.place4, c.place5]

/-- The feed terms of a contract part: as many places as the feed count says. -/
def ContractImage.terms (c : ContractImage) : List FeedPlace := c.places.take c.feedCount.toNat

/-- A place as it is stored: kept below the feed count, zero beyond it (R182). -/
def storedPlace (count index : Nat) (p : FeedPlace) : FeedPlace :=
  if index < count then p else FeedPlace.zero

/-- R182: the image as stored, unused places zero and one-per-day 0 or 1. -/
def ContractImage.stored (c : ContractImage) : ContractImage :=
  let n := c.feedCount.toNat
  { c with
    place0 := storedPlace n 0 c.place0, place1 := storedPlace n 1 c.place1,
    place2 := storedPlace n 2 c.place2, place3 := storedPlace n 3 c.place3,
    place4 := storedPlace n 4 c.place4, place5 := storedPlace n 5 c.place5,
    onePerDay := if c.onePerDay = 0 then 0 else 1 }

/-- The contract image as its 33 bytes (10.5, The contract image). -/
def contractBytes (c : ContractImage) : List Byte :=
  wordBytes c.account ++ [c.schedule, c.feedCount] ++
  [c.place0.channel, c.place0.sign, c.place1.channel, c.place1.sign,
   c.place2.channel, c.place2.sign, c.place3.channel, c.place3.sign,
   c.place4.channel, c.place4.sign, c.place5.channel, c.place5.sign] ++
  [c.windowLength] ++ wordBytes c.contractDemand ++ wordBytes c.minimumBilling ++
  halfBytes c.allowance ++
  [c.peaksAveraged, c.onePerDay, c.ratchetPercent, c.ratchetPeriods]

/-- The contract image that 33 bytes carry. -/
def contractOf : List Byte → Option ContractImage
  | a0 :: a1 :: a2 :: a3 :: sch :: n :: c0 :: s0 :: c1 :: s1 :: c2 :: s2 :: c3 :: s3 ::
    c4 :: s4 :: c5 :: s5 :: w :: d0 :: d1 :: d2 :: d3 :: m0 :: m1 :: m2 :: m3 :: r0 :: r1 ::
    pk :: opd :: pct :: per :: [] =>
    some
      { account := wordOf a0 a1 a2 a3, schedule := sch, feedCount := n,
        place0 := ⟨c0, s0⟩, place1 := ⟨c1, s1⟩, place2 := ⟨c2, s2⟩,
        place3 := ⟨c3, s3⟩, place4 := ⟨c4, s4⟩, place5 := ⟨c5, s5⟩,
        windowLength := w, contractDemand := wordOf d0 d1 d2 d3,
        minimumBilling := wordOf m0 m1 m2 m3, allowance := halfOf r0 r1,
        peaksAveraged := pk, onePerDay := opd, ratchetPercent := pct, ratchetPeriods := per }
  | _ => none

/-- The six bytes of a calendar time operand (R182). -/
def timeBytes (t : TimeImage) : List Byte :=
  [t.year, t.month, t.day, t.hour, t.minute, t.second]

/-- What checks 3 and 4 of R175 find: a code that is not in the table, an operand length the
table does not allow, or a command. -/
inductive Decoded where
  | unknownCommand
  | badLength
  | command (c : Instr)
  deriving DecidableEq, Repr

/-- A command with no operand bytes. -/
def decodeNone (c : Instr) : List Byte → Decoded
  | [] => .command c
  | _ => .badLength

/-- A command with one operand byte. -/
def decodeByte (f : Byte → Instr) : List Byte → Decoded
  | [a] => .command (f a)
  | _ => .badLength

/-- A command with a two-byte operand. -/
def decodeHalf (f : Half → Instr) : List Byte → Decoded
  | [a, b] => .command (f (halfOf a b))
  | _ => .badLength

/-- A command with a four-byte operand. -/
def decodeWord (f : Word → Instr) : List Byte → Decoded
  | [a, b, c, d] => .command (f (wordOf a b c d))
  | _ => .badLength

/-- A command with an account number and one byte. -/
def decodeWordByte (f : Word → Byte → Instr) : List Byte → Decoded
  | [a, b, c, d, e] => .command (f (wordOf a b c d) e)
  | _ => .badLength

/-- SET CLOCK: calendar time, source. -/
def decodeClock (f : TimeImage → Byte → Instr) : List Byte → Decoded
  | [y, mo, d, h, mi, s, src] => .command (f ⟨y, mo, d, h, mi, s⟩ src)
  | _ => .badLength

/-- LOAD SCHEDULE: 25 to 109 operand bytes, the slot first. -/
def decodeLoad (f : Byte → List Byte → Instr) : List Byte → Decoded
  | slot :: body =>
    if 24 ≤ body.length ∧ body.length ≤ 108 then .command (f slot body) else .badLength
  | [] => .badLength

/-- LOAD HOLIDAYS: 1 to 73 operand bytes, the count first. -/
def decodeHolidays (f : Byte → List Byte → Instr) : List Byte → Decoded
  | count :: body => if body.length ≤ 72 then .command (f count body) else .badLength
  | [] => .badLength

/-- REGISTER METER: channel, identity, rated power. -/
def decodeMeter (f : Byte → Quantity → Word → Instr) : List Byte → Decoded
  | [k, i0, i1, i2, i3, i4, i5, r0, r1, r2, r3] =>
    .command (f k (quantityOf i0 i1 i2 i3 i4 i5) (wordOf r0 r1 r2 r3))
  | _ => .badLength

/-- SET CHANNEL POLICY: channel, policy, timeout, rated power. -/
def decodePolicy (f : Byte → Byte → Byte → Word → Instr) : List Byte → Decoded
  | [k, p, t, r0, r1, r2, r3] => .command (f k p t (wordOf r0 r1 r2 r3))
  | _ => .badLength

/-- OPEN ACCOUNT: the contract image as the whole operand. -/
def decodeContract (f : ContractImage → Instr) (ops : List Byte) : Decoded :=
  match contractOf ops with
  | some img => .command (f img)
  | none => .badLength

/-- STAGE AMENDMENT: account number, then the contract image. -/
def decodeAmendment (f : Word → ContractImage → Instr) : List Byte → Decoded
  | a :: b :: c :: d :: rest =>
    match contractOf rest with
    | some img => .command (f (wordOf a b c d) img)
    | none => .badLength
  | _ => .badLength

/-- DISMISS: the set of kinds, and a source number when there are 3 operand bytes. -/
def decodeDismiss (f : Half → Option Byte → Instr) : List Byte → Decoded
  | [a, b] => .command (f (halfOf a b) none)
  | [a, b, c] => .command (f (halfOf a b) (some c))
  | _ => .badLength

/-- R175 checks 3 and 4 over the command code table of 10.5. -/
def decodeRequest (code : Byte) (ops : List Byte) : Decoded :=
  match code.toNat with
  | 0x01 => decodeNone .readIdentity ops
  | 0x02 => decodeNone .engineClear ops
  | 0x08 => decodeClock .setClock ops
  | 0x09 => decodeNone .readClock ops
  | 0x0A => decodeHalf .setSubinterval ops
  | 0x10 => decodeLoad .loadSchedule ops
  | 0x11 => decodeByte .readSchedule ops
  | 0x12 => decodeHolidays .loadHolidays ops
  | 0x13 => decodeNone .readHolidays ops
  | 0x18 => decodeByte .setHoldTime ops
  | 0x19 => decodeNone .readLinks ops
  | 0x20 => decodeMeter .registerMeter ops
  | 0x21 => decodeByte .releaseMeter ops
  | 0x22 => decodePolicy .setChannelPolicy ops
  | 0x23 => decodeByte .readChannel ops
  | 0x30 => decodeContract .openAccount ops
  | 0x31 => decodeWord .listAccounts ops
  | 0x32 => decodeWord .readAccount ops
  | 0x33 => decodeWordByte .readRegisters ops
  | 0x34 => decodeWord .readPeaks ops
  | 0x35 => decodeNone .readSweep ops
  | 0x38 => decodeWord .closePeriod ops
  | 0x39 => decodeWord .fetchClosed ops
  | 0x3A => decodeAmendment .stageAmendment ops
  | 0x3B => decodeWordByte .commitAmendment ops
  | 0x3C => decodeWord .withdrawAmendment ops
  | 0x3D => decodeWord .suspendAccount ops
  | 0x3E => decodeWord .resumeAccount ops
  | 0x3F => decodeWord .retireAccount ops
  | 0x40 => decodeNone .takeAttention ops
  | 0x41 => decodeDismiss .dismiss ops
  | 0x42 => decodeHalf .setAttentionMask ops
  | 0x43 => decodeByte .readAttention ops
  | _ => .unknownCommand

/-- The command code and operand bytes of a request command; none for an event. -/
def requestOf : Instr → Option (Byte × List Byte)
  | .readIdentity => some (0x01, [])
  | .engineClear => some (0x02, [])
  | .setClock t src => some (0x08, timeBytes t ++ [src])
  | .readClock => some (0x09, [])
  | .setSubinterval h => some (0x0A, halfBytes h)
  | .loadSchedule slot body => some (0x10, slot :: body)
  | .readSchedule b => some (0x11, [b])
  | .loadHolidays n body => some (0x12, n :: body)
  | .readHolidays => some (0x13, [])
  | .setHoldTime b => some (0x18, [b])
  | .readLinks => some (0x19, [])
  | .registerMeter k id r => some (0x20, k :: (quantityBytes id ++ wordBytes r))
  | .releaseMeter b => some (0x21, [b])
  | .setChannelPolicy k p t r => some (0x22, k :: p :: t :: wordBytes r)
  | .readChannel b => some (0x23, [b])
  | .openAccount img => some (0x30, contractBytes img)
  | .listAccounts a => some (0x31, wordBytes a)
  | .readAccount a => some (0x32, wordBytes a)
  | .readRegisters a b => some (0x33, wordBytes a ++ [b])
  | .readPeaks a => some (0x34, wordBytes a)
  | .readSweep => some (0x35, [])
  | .closePeriod a => some (0x38, wordBytes a)
  | .fetchClosed a => some (0x39, wordBytes a)
  | .stageAmendment a img => some (0x3A, wordBytes a ++ contractBytes img)
  | .commitAmendment a b => some (0x3B, wordBytes a ++ [b])
  | .withdrawAmendment a => some (0x3C, wordBytes a)
  | .suspendAccount a => some (0x3D, wordBytes a)
  | .resumeAccount a => some (0x3E, wordBytes a)
  | .retireAccount a => some (0x3F, wordBytes a)
  | .takeAttention => some (0x40, [])
  | .dismiss ks src => some (0x41, halfBytes ks ++ src.toList)
  | .setAttentionMask h => some (0x42, halfBytes h)
  | .readAttention b => some (0x43, [b])
  | .sendTransaction _ => none
  | .readTransaction _ => none
  | .voidTransaction _ _ => none
  | .executionEnds => none
  | .powerOn => none
  | .mainPowerLoss => none
  | .backupSupplyLoss => none
  | .resetPinAsserted => none
  | .resetPinReleased => none
  | .storageDisturbance _ _ _ => none
  | .secondPulseEdge => none
  | .internalSecond => none
  | .pulseLossFallback => none
  | .frameReceived _ _ _ => none
  | .idleGap _ => none
  | .lineReturnsToMarking _ => none
  | .lineBreak _ => none
  | .transmissionComplete _ => none
  | .refreshPoint _ => none
  | .holdExpiry _ => none
  | .presenceTimerExpiry _ => none
  | .takeFrameEntry => none
  | .takeMarker => none
  | .sweepVisit => none
  | .characterReceived _ _ _ => none
  | .outageSecondAdvance => none

/-- No row of the opcode table has bits, so no word spells a command. -/
def decodeTableWord (_nbits _w : Nat) : Option Instr := none

end Sys2Proof
end

