-- ==== Sys2Proof/Machine/Crc.lean ====
section
/-!
DEFINITION. The one CRC-16 of the part (R181): polynomial x^16 + x^12 + x^5 + 1, register from
0xFFFF, each byte most significant bit first, no reflection and no final inversion.
-/

namespace Sys2Proof.Machine

/-- Shift the register by one bit, dividing by the generator when a 1 leaves it. -/
def crcShift (r : Half) : Half :=
  if r.msb then (r <<< 1) ^^^ 0x1021#16 else r <<< 1

/-- One byte enters the register, most significant bit first. -/
def crcByte (r : Half) (b : Byte) : Half :=
  crcShift (crcShift (crcShift (crcShift (crcShift (crcShift (crcShift (crcShift
    (r ^^^ (b ++ 0#8 : BitVec 16)))))))))

/-- The CRC-16 over the bytes in order (R181). -/
def crc16 (bytes : List Byte) : Half := bytes.foldl crcByte 0xFFFF#16

end Sys2Proof.Machine
end

