-- ==== Sys2Proof/Config.lean ====
section
/-!
DEFINITION. What is fixed for the part: its capacities (00_scope.md, Principal capacities) and
the FREE VALUES of the model, each an opaque function with no body (logs 13, 14, 27 and 28).
A free value answers only where a disturbance of storage that the check code does not show has
left a contract field outside its range (R2, R21), where the spec states no result.
-/

namespace Sys2Proof

/-- Frame entries the intake queue has room for (R63). -/
def Config.queueCapacity : Nat := 64
/-- The HIGH mark (R66). -/
def Config.highMark : Nat := 48
/-- The LOW mark (R66). -/
def Config.lowMark : Nat := 16
/-- Characters of a TOTALS frame (R59). -/
def Config.frameLength : Nat := 25
/-- Presence timeout of a channel at registration and at release, in seconds (R98, R100). -/
def Config.defaultTimeout : Nat := 5
/-- Hold time setting after retention loss, in seconds (R77). -/
def Config.defaultHoldTime : Nat := 8
/-- Subinterval length after retention loss, in seconds (R26). -/
def Config.defaultSubinterval : Nat := 900
/-- The subinterval lengths the clock accepts (R40). -/
def Config.subintervalLengths : List Nat := [60, 120, 180, 300, 600, 900, 1800]
/-- The greatest 48-bit quantity, where registers, sums and credits stop (R6, R78). -/
def Config.maxQuantity : Nat := 2 ^ 48 - 1
/-- Data bytes one response segment holds (R176). -/
def Config.segmentData : Nat := 252

/-- FREE VALUE (log 14): a top-list average whose divisor is 0 or whose quotient leaves 32 bits,
as a function of the sum and the divisor. -/
opaque Config.freeAverage : Nat → Nat → Word

/-- FREE VALUE (log 27): the ratchet record left by a close whose contract is not FAULTED and has
a ratchet percent that is neither 0 nor 50 to 100, or renews with ratchet periods outside 1 to 12,
as a function of the percent, the periods, the top-list average, the value held and the remaining
periods. -/
opaque Config.freeRatchet : Byte → Byte → Word → Word → Nat → Word × Nat

/-- FREE VALUE (log 28): the reference count left by a release of more terms than it counts, as a
function of the count and the number released. -/
opaque Config.freeCount : Nat → Nat → Nat

/-- FREE VALUE (log 13): the period looked up for a schedule number above 7. -/
opaque Config.freePeriod : Byte → Fin 4

/-- FREE VALUE (log 13): the attribute pair (demand-chargeable, leading-penalised) read for a
schedule slot that is EMPTY or above 7. -/
opaque Config.freeAttributes : Byte → Fin 4 → Bool × Bool

/-- FREE VALUE (log 13): the sealed window and catch-up parts read for a channel above 15. -/
opaque Config.freeSealed : Byte → Triple Quantity × Triple Quantity

/-- FREE VALUE (log 13): the sealed estimated mark read for a channel above 15. -/
opaque Config.freeEstimated : Byte → Bool

/-- FREE VALUE (log 13): the weight of a feed term whose sign code is neither plus nor minus. -/
opaque Config.freeSign : Byte → Int

end Sys2Proof
end

