-- ==== Sys2Proof/Machine/State.lean ====
section
/-!
DEFINITION. The state of the part as plain data, one record per block (00_scope.md, Block
overview), the queue of waiting commands, the outcomes' reason types, and the state right after
reset: power-on with retention lost (R187, log 7).
-/

namespace Sys2Proof.Machine

/-! ## Calendar values -/

/-- A calendar date; the year is counted from 2000 (R182). -/
structure Date where
  year : Nat
  month : Nat
  day : Nat
  deriving DecidableEq, Repr

/-- A calendar time, to the second. -/
structure CalTime where
  date : Date
  hour : Nat
  minute : Nat
  second : Nat
  deriving DecidableEq, Repr

inductive DayOfWeek where
  | monday | tuesday | wednesday | thursday | friday | saturday | sunday
  deriving DecidableEq, Repr

/-- 2000-01-01 00:00:00, where the calendar begins. -/
def CalTime.origin : CalTime := ⟨⟨0, 1, 1⟩, 0, 0, 0⟩

/-! ## Billing clock (R26) and boundary markers (R33) -/

inductive SecondSource where
  | pulse | internal
  deriving DecidableEq, Repr

inductive BoundaryKind where
  | regular | irregular
  deriving DecidableEq, Repr

/-- The three fields of a boundary marker (section 2.3). -/
structure Marker where
  number : Word
  time : CalTime
  kind : BoundaryKind
  deriving DecidableEq, Repr

structure Clock where
  time : CalTime
  dayOfWeek : DayOfWeek
  source : SecondSource
  trust : Bool
  /-- The subinterval length L, in seconds. -/
  subinterval : Nat
  boundaryNumber : Word
  lastBoundary : CalTime
  markerWaiting : Bool
  monotonic : Word
  /-- The pulse gap in half seconds (log 17). -/
  gapHalves : Nat
  /-- Half seconds since the last internal second, while INTERNAL (R30, log 17). -/
  phaseHalves : Nat
  deriving DecidableEq, Repr

/-! ## Tariff table (R43 to R46) -/

structure PeriodAttributes where
  demandChargeable : Bool
  leadingPenalised : Bool
  deriving DecidableEq, Repr

structure SwitchPoint where
  minute : Nat
  period : Fin 4
  deriving DecidableEq, Repr

structure Schedule where
  periods : Vector PeriodAttributes 4
  weekday : List SwitchPoint
  saturday : List SwitchPoint
  sunday : List SwitchPoint
  holiday : List SwitchPoint
  deriving DecidableEq, Repr

/-- An EMPTY slot holds no contents: `none`. -/
structure Tariff where
  schedules : Vector (Option Schedule) 8
  holidays : List Date
  deriving DecidableEq, Repr

/-! ## Links and the intake queue (R58, R63) -/

inductive ReceiveState where
  | waiting | collecting | spacing
  deriving DecidableEq, Repr

inductive BreakState where
  | normal | broken
  deriving DecidableEq, Repr

inductive FlowState where
  | flowing | holdPending | held | releasePending
  deriving DecidableEq, Repr

inductive ControlFrame where
  | hold | release
  deriving DecidableEq, Repr

/-- What a TIME frame carries: a calendar time and the low byte of a boundary number. -/
structure TimeRequest where
  time : CalTime
  lowByte : Byte
  deriving DecidableEq, Repr

/-- The transmitter, with what the frame in transmission carries (R70). -/
inductive Transmitter where
  | idle
  | sendingHold (holdTime : Nat)
  | sendingRelease
  | sendingTime (request : TimeRequest)
  deriving DecidableEq, Repr

structure Link where
  receive : ReceiveState
  /-- The characters collected; their number is the record's count. -/
  collected : List Byte
  charError : Bool
  breakState : BreakState
  errorMark : Bool
  overrunMark : Bool
  flow : FlowState
  waitingControl : Option ControlFrame
  waitingTime : Option TimeRequest
  transmitter : Transmitter
  /-- Stopped, or half seconds since the last HOLD completed (log 17). -/
  holdTimer : Option Nat
  lastHold : Nat
  deriving DecidableEq, Repr

/-- A frame entry: the receiving link and the frame's contents as received (R63). -/
structure FrameEntry where
  link : Fin 4
  subAddress : Fin 4
  identity : Quantity
  sequence : Byte
  totals : Triple Word
  sourceStatus : Half
  deriving DecidableEq, Repr

/-- A marker in the marker place, with the number of frame entries ahead of it (R63). -/
structure QueuedMarker where
  marker : Marker
  position : Nat
  deriving DecidableEq, Repr

structure IntakeQueue where
  /-- Oldest first. -/
  entries : List FrameEntry
  marker : Option QueuedMarker
  congested : Bool
  deriving DecidableEq, Repr

/-! ## Channels (R78) -/

inductive ChannelState where
  | unregistered | awaiting | live | silent
  deriving DecidableEq, Repr

inductive Policy where
  | holdLast | defer
  deriving DecidableEq, Repr

inductive TimerMode where
  | running | frozen | stopped
  deriving DecidableEq, Repr

structure Channel where
  state : ChannelState
  identity : Option Quantity
  policy : Policy
  timeout : Nat
  ratedPower : Option Word
  timerMode : TimerMode
  /-- Remaining time of the presence timer in half seconds (log 17). -/
  timerHalves : Nat
  lastTotals : Option (Triple Word)
  lastSequence : Option Byte
  lastSecond : Option Word
  implausibleRun : Nat
  openWindow : Triple Quantity
  openCatchUp : Triple Quantity
  openEstimated : Bool
  sealedWindow : Triple Quantity
  sealedCatchUp : Triple Quantity
  sealedEstimated : Bool
  reference : Triple Quantity
  credit : Triple Quantity
  silenceSpannedSeal : Bool
  wasSilent : Bool
  referenceCount : Nat
  deriving DecidableEq, Repr

/-! ## Sweep record (R104) -/

structure Sweep where
  running : Bool
  b : Word
  time : CalTime
  kind : BoundaryKind
  nextSlot : Nat
  heldMarker : Bool
  deriving DecidableEq, Repr

/-! ## Account table (R1 to R9, R12) -/

inductive AccountState where
  | vacant | opening | active | suspended | retiring | retired | faulted
  deriving DecidableEq, Repr

/-- One window entry; the nets are signed 48-bit quantities (R5). -/
structure WindowEntry where
  net : Triple Quantity
  estimated : Bool
  deriving DecidableEq, Repr

/-- An unsigned 48-bit register with its own saturated mark (R6). -/
structure EnergyRegister where
  value : Quantity
  saturated : Bool
  deriving DecidableEq, Repr

structure PeakRecord where
  demand : Word
  reactive : Word
  endTime : CalTime
  estimated : Bool
  timeUnsure : Bool
  deriving DecidableEq, Repr

structure RegisterSet where
  active : EnergyRegister
  lagging : EnergyRegister
  leading : EnergyRegister
  excessLagging : EnergyRegister
  excessLeading : EnergyRegister
  subintervals : Word
  estimatedCount : Word
  peak : Option PeakRecord
  deriving DecidableEq, Repr

structure TopEntry where
  demand : Word
  endTime : CalTime
  day : Date
  estimated : Bool
  timeUnsure : Bool
  deriving DecidableEq, Repr

inductive EffectMode where
  | atBoundary | atClose
  deriving DecidableEq, Repr

/-- A STAGED amendment has no effect mode (R8). -/
inductive AmendmentStatus where
  | staged
  | committed (mode : EffectMode)
  deriving DecidableEq, Repr

structure Amendment where
  status : AmendmentStatus
  contract : ContractImage
  deriving DecidableEq, Repr

structure Snapshot where
  periodCount : Half
  closeTime : CalTime
  registers : Vector RegisterSet 4
  topList : List TopEntry
  average : Word
  ratchetApplied : Word
  billingDemand : Word
  finalClose : Bool
  faulted : Bool
  estimatedAny : Bool
  deriving DecidableEq, Repr

structure Account where
  state : AccountState
  contract : ContractImage
  checkCode : Half
  closePending : Bool
  suspendPending : Bool
  resumePending : Bool
  period : Fin 4
  overContract : Bool
  negativeNet : Bool
  lastBoundary : Word
  periodCount : Half
  window : List WindowEntry
  registers : Vector RegisterSet 4
  topList : List TopEntry
  ratchetValue : Word
  ratchetRemaining : Nat
  amendment : Option Amendment
  snapshot : Option Snapshot
  deriving DecidableEq, Repr

/-- A directory entry: an account number and its slot (R12). -/
structure DirectoryEntry where
  account : Word
  slot : Fin 32
  deriving DecidableEq, Repr

/-! ## Attention unit (R162 to R164) -/

/-- The sixteen kinds, lowest rank first. -/
inductive AttnKind where
  | sweepLate | negativeNet | channelResumed | clockIrregular
  | amendmentApplied | closeDone | demandExceeded | substitutionExcess
  | linkError | implausible | foreignMeter | channelSilent
  | linkBreak | queueOverrun | recordFault | retentionLost
  deriving DecidableEq, Repr

structure AttnPair where
  kind : AttnKind
  source : Nat
  deriving DecidableEq, Repr

structure Attention where
  /-- The pending set, in taking order and without repeats (R163, R165, log 16). -/
  pendingSet : List AttnPair
  /-- Bit r enables the kind of rank r (R182). -/
  mask : Half
  deriving DecidableEq, Repr

/-! ## Request port (R173, R179) -/

/-- The status codes of 10.5. -/
inductive Status where
  | ok | busy | badFrame | unknownCommand | badOperand | noAccount | duplicate | tableFull
  | wrongState | nothingStaged | snapshotUnread | noSnapshot | inUse | channelUnregistered
  | duplicateFeed | badSchedule | sweepActive | recordFault
  deriving DecidableEq, Repr

/-- A response: one status and the data the command's rule lists (R176). -/
structure Response where
  status : Status
  data : List Byte
  deriving DecidableEq, Repr

/-- An execution: the request dispatched and not yet acted, or the outcome of its act, whose
response is not yet composed (R176). -/
inductive Execution where
  | dispatched (command : Instr)
  | acted (response : Response)
  deriving DecidableEq, Repr

inductive PortState where
  | idle
  | executing (execution : Execution)
  | responseReady (response : Response)
  deriving DecidableEq, Repr

structure Port where
  state : PortState
  /-- What the part shifted out in the last transaction, the port byte first (log 15). -/
  shiftedOut : List Byte
  deriving DecidableEq, Repr

/-! ## Power, retention and identity (R180, R183, R188) -/

inductive ResetCause where
  | powerOn | pin | engineClear
  deriving DecidableEq, Repr

structure Device where
  mainPower : Bool
  resetHeld : Bool
  /-- The validity mark of the retention store. -/
  retentionValid : Bool
  resetCause : ResetCause
  retentionLost : Bool
  deriving DecidableEq, Repr

/-! ## The whole part -/

/-- The state of the part and the queue of the commands that wait. -/
structure State where
  device : Device
  clock : Clock
  tariff : Tariff
  links : Vector Link 4
  /-- The device-wide hold time setting, in seconds (R75). -/
  holdTime : Nat
  queue : IntakeQueue
  channels : Vector Channel 16
  sweep : Sweep
  slots : Vector Account 32
  directory : List DirectoryEntry
  attention : Attention
  port : Port
  /-- Commands waiting, first in, first out (log 1). -/
  pending : List Instr
  deriving DecidableEq, Repr

/-- No command of this block stops it with a fault: the spec answers every command with an
effect, a status or no event (INVENTORY.md, Faults). -/
inductive Fault where
  deriving DecidableEq, Repr

/-- The reasons `exec` can refuse. -/
inductive Refusal where
  /-- Raised by an arm of `exec` whose command has no meaning yet; safe, since the machine
  stops. No arm raises it in this package. -/
  | notModelled (mnemonic : String)
  deriving DecidableEq, Repr

/-! ## Values after power-on with retention lost (R187) -/

def EnergyRegister.zero : EnergyRegister := ⟨0, false⟩

/-- A register set as a close leaves it (R6). -/
def RegisterSet.zero : RegisterSet :=
  { active := EnergyRegister.zero, lagging := EnergyRegister.zero,
    leading := EnergyRegister.zero, excessLagging := EnergyRegister.zero,
    excessLeading := EnergyRegister.zero, subintervals := 0, estimatedCount := 0, peak := none }

/-- The cleared form of R18: contract and check code zero, running part in its opening form,
state VACANT, last boundary applied zero. -/
def Account.cleared : Account :=
  { state := .vacant, contract := ContractImage.zero, checkCode := 0,
    closePending := false, suspendPending := false, resumePending := false,
    period := 0, overContract := false, negativeNet := false,
    lastBoundary := 0, periodCount := 0, window := [],
    registers := Vector.replicate 4 RegisterSet.zero, topList := [],
    ratchetValue := 0, ratchetRemaining := 0, amendment := none, snapshot := none }

/-- A channel after power-on with retention lost (R103). -/
def Channel.cleared : Channel :=
  { state := .unregistered, identity := none, policy := .holdLast,
    timeout := Config.defaultTimeout, ratedPower := none,
    timerMode := .stopped, timerHalves := 0,
    lastTotals := none, lastSequence := none, lastSecond := none, implausibleRun := 0,
    openWindow := Triple.same 0, openCatchUp := Triple.same 0, openEstimated := false,
    sealedWindow := Triple.same 0, sealedCatchUp := Triple.same 0, sealedEstimated := false,
    reference := Triple.same 0, credit := Triple.same 0,
    silenceSpannedSeal := false, wasSilent := false, referenceCount := 0 }

/-- A link record after any reset, with the hold time setting that then stands (R77). -/
def Link.afterReset (holdTime : Nat) : Link :=
  { receive := .waiting, collected := [], charError := false, breakState := .normal,
    errorMark := false, overrunMark := false, flow := .flowing, waitingControl := none,
    waitingTime := none, transmitter := .idle, holdTimer := none, lastHold := holdTime }

/-- The billing clock after power-on with retention lost (R26, R42). -/
def Clock.afterLoss : Clock :=
  { time := CalTime.origin, dayOfWeek := .saturday, source := .internal, trust := false,
    subinterval := Config.defaultSubinterval, boundaryNumber := 0,
    lastBoundary := CalTime.origin, markerWaiting := false, monotonic := 0,
    gapHalves := 0, phaseHalves := 0 }

/-- The sweep record after power-on with retention lost (R128). -/
def Sweep.afterLoss : Sweep :=
  { running := false, b := 0, time := CalTime.origin, kind := .regular, nextSlot := 32,
    heldMarker := false }

/-- The intake queue after any reset (R77). -/
def IntakeQueue.empty : IntakeQueue := { entries := [], marker := none, congested := false }

/-- The machine right after a power-on with retention lost (R187, log 7). -/
def State.reset : State :=
  { device :=
      { mainPower := true, resetHeld := false, retentionValid := true,
        resetCause := .powerOn, retentionLost := true }
    clock := Clock.afterLoss
    tariff := { schedules := Vector.replicate 8 none, holidays := [] }
    links := Vector.replicate 4 (Link.afterReset Config.defaultHoldTime)
    holdTime := Config.defaultHoldTime
    queue := IntakeQueue.empty
    channels := Vector.replicate 16 Channel.cleared
    sweep := Sweep.afterLoss
    slots := Vector.replicate 32 Account.cleared
    directory := []
    attention := { pendingSet := [⟨.retentionLost, 0⟩], mask := 0xFFFF }
    port := { state := .idle, shiftedOut := [] }
    pending := [] }

end Sys2Proof.Machine
end

