-- ==== Sys2Proof/Machine/Calendar.lean ====
section
/-!
DEFINITION. The calendar: 2000-01-01 to 2099-12-31 with Gregorian days (00_scope.md, Calendar;
R27, R28, R47), times of day, the day of a demand (R132) and the judgement whether two times lie
in the same subinterval (R38).
-/

namespace Sys2Proof.Machine

/-- R27: from 2000 to 2099 a year divisible by 4 is a leap year; years are counted from 2000. -/
def leapYear (year : Nat) : Bool := year % 4 == 0

/-- R27: the days of a month. -/
def daysInMonth (year month : Nat) : Nat :=
  if month = 2 then (if leapYear year then 29 else 28)
  else if month = 4 ∨ month = 6 ∨ month = 9 ∨ month = 11 then 30
  else 31

/-- A real date of the calendar's range. -/
def Date.valid (d : Date) : Bool :=
  decide (d.year ≤ 99) && decide (1 ≤ d.month) && decide (d.month ≤ 12) &&
  decide (1 ≤ d.day) && decide (d.day ≤ daysInMonth d.year d.month)

/-- A real time of the calendar's range. -/
def CalTime.valid (t : CalTime) : Bool :=
  t.date.valid && decide (t.hour ≤ 23) && decide (t.minute ≤ 59) && decide (t.second ≤ 59)

/-- A number that orders dates. -/
def Date.key (d : Date) : Nat := (d.year * 16 + d.month) * 32 + d.day

/-- The following date; after 2099-12-31 comes 2000-01-01 (R28). -/
def Date.next (d : Date) : Date :=
  if d.day < daysInMonth d.year d.month then ⟨d.year, d.month, d.day + 1⟩
  else if d.month < 12 then ⟨d.year, d.month + 1, 1⟩
  else if d.year < 99 then ⟨d.year + 1, 1, 1⟩
  else ⟨0, 1, 1⟩

/-- The date before; before 2000-01-01 stands 2099-12-31, as the calendar wraps (log 19). -/
def Date.previous (d : Date) : Date :=
  if 1 < d.day then ⟨d.year, d.month, d.day - 1⟩
  else if 1 < d.month then ⟨d.year, d.month - 1, daysInMonth d.year (d.month - 1)⟩
  else if 0 < d.year then ⟨d.year - 1, 12, 31⟩
  else ⟨99, 12, 31⟩

/-- The time of day in seconds, counted from 00:00:00. -/
def CalTime.timeOfDay (t : CalTime) : Nat := t.hour * 3600 + t.minute * 60 + t.second

/-- 2099-12-31 23:59:59, from which the next second wraps (R28). -/
def CalTime.last : CalTime := ⟨⟨99, 12, 31⟩, 23, 59, 59⟩

/-- R27: one second later. -/
def CalTime.next (t : CalTime) : CalTime :=
  if t.second < 59 then { t with second := t.second + 1 }
  else if t.minute < 59 then { t with minute := t.minute + 1, second := 0 }
  else if t.hour < 23 then { t with hour := t.hour + 1, minute := 0, second := 0 }
  else ⟨t.date.next, 0, 0, 0⟩

/-- Days of the year before a month begins. -/
def daysBeforeMonth (year : Nat) : Nat → Nat
  | 0 => 0
  | 1 => 0
  | month + 2 => daysBeforeMonth year (month + 1) + daysInMonth year (month + 1)

/-- Days since 2000-01-01. -/
def Date.dayNumber (d : Date) : Nat :=
  365 * d.year + (d.year + 3) / 4 + daysBeforeMonth d.year d.month + (d.day - 1)

def DayOfWeek.ofNumber (n : Nat) : DayOfWeek :=
  match n % 7 with
  | 0 => .saturday
  | 1 => .sunday
  | 2 => .monday
  | 3 => .tuesday
  | 4 => .wednesday
  | 5 => .thursday
  | _ => .friday

/-- R47: the day of week under the Gregorian calendar, in which 2000-01-01 is a Saturday. -/
def Date.dayOfWeek (d : Date) : DayOfWeek := DayOfWeek.ofNumber d.dayNumber

/-- R38: the same calendar date, and equal quotients of the times of day by L. -/
def sameSubinterval (length : Nat) (a b : CalTime) : Bool :=
  decide (a.date = b.date) && a.timeOfDay / length == b.timeOfDay / length

/-- R132: the calendar date one second before the end time. -/
def dayOfDemand (t : CalTime) : Date :=
  if t.timeOfDay = 0 then t.date.previous else t.date

end Sys2Proof.Machine
end

