-- ==== Sys2Proof/Machine/Flags.lean ====
section
/-!
DEFINITION. The computations of flags, marks and lines: the attention unit's ranks, pending set,
mask and ATTN line (R162 to R165), the READY line and the port byte (R172, R173), the saturating
additions with their marks (R6, R78), the codes of the enumerations and statuses (R182, 10.5).
-/

namespace Sys2Proof.Machine

/-! ## Attention kinds -/

/-- R162: the rank of a kind, which is also its code. -/
def AttnKind.rank : AttnKind → Nat
  | .retentionLost => 15
  | .recordFault => 14
  | .queueOverrun => 13
  | .linkBreak => 12
  | .channelSilent => 11
  | .foreignMeter => 10
  | .implausible => 9
  | .linkError => 8
  | .substitutionExcess => 7
  | .demandExceeded => 6
  | .closeDone => 5
  | .amendmentApplied => 4
  | .clockIrregular => 3
  | .channelResumed => 2
  | .negativeNet => 1
  | .sweepLate => 0

/-- How many source numbers a kind has, from 0 (R162). -/
def AttnKind.sources : AttnKind → Nat
  | .retentionLost => 1
  | .clockIrregular => 1
  | .sweepLate => 1
  | .recordFault => 32
  | .demandExceeded => 32
  | .closeDone => 32
  | .amendmentApplied => 32
  | .negativeNet => 32
  | .queueOverrun => 4
  | .linkBreak => 4
  | .linkError => 4
  | .channelSilent => 16
  | .foreignMeter => 16
  | .implausible => 16
  | .substitutionExcess => 16
  | .channelResumed => 16

/-- R162: the source type is slot for the kinds with 32 sources. -/
def AttnKind.ofSlot (k : AttnKind) : Bool := k.sources == 32

/-- The place of a pair in the taking order: rank, the highest first, then source number, the
lowest first (R165). -/
def AttnPair.key (p : AttnPair) : Nat := (15 - p.kind.rank) * 64 + p.source

/-- R163: add a pair if it is absent, at its place in the taking order. -/
def insertPair (p : AttnPair) : List AttnPair → List AttnPair
  | [] => [p]
  | q :: qs =>
    if p = q then q :: qs
    else if p.key < q.key then p :: q :: qs
    else q :: insertPair p qs

/-- R164: whether the mask enables a kind. -/
def enabled (mask : Half) (k : AttnKind) : Bool := mask.getLsbD k.rank

/-- The pending pairs of enabled kinds. -/
def Attention.enabledPairs (a : Attention) : List AttnPair :=
  a.pendingSet.filter fun p => enabled a.mask p.kind

/-- R164: ATTN is asserted exactly when an enabled pair is pending. -/
def State.attn (s : State) : Bool :=
  s.attention.pendingSet.any fun p => enabled s.attention.mask p.kind

/-- R163: hand a pair to the attention unit. -/
def State.latch (k : AttnKind) (source : Nat) (s : State) : State :=
  { s with attention := { s.attention with
      pendingSet := insertPair ⟨k, source⟩ s.attention.pendingSet } }

/-- Latch several kinds with one source, in order. -/
def State.latchAll (ks : List AttnKind) (source : Nat) (s : State) : State :=
  ks.foldl (fun s k => s.latch k source) s

/-! ## Request port lines -/

/-- R173: READY is asserted exactly while the port is RESPONSE_READY. -/
def State.ready (s : State) : Bool :=
  match s.port.state with
  | .responseReady _ => true
  | _ => false

/-- R172: the port byte of each port state. -/
def PortState.byte : PortState → Byte
  | .idle => 0xE0
  | .responseReady _ => 0xE2
  | .executing _ => 0x01

/-- The status codes of 10.5. -/
def Status.code : Status → Byte
  | .ok => 0x00
  | .busy => 0x01
  | .badFrame => 0x02
  | .unknownCommand => 0x03
  | .badOperand => 0x04
  | .noAccount => 0x05
  | .duplicate => 0x06
  | .tableFull => 0x07
  | .wrongState => 0x08
  | .nothingStaged => 0x09
  | .snapshotUnread => 0x0A
  | .noSnapshot => 0x0B
  | .inUse => 0x0C
  | .channelUnregistered => 0x0D
  | .duplicateFeed => 0x0E
  | .badSchedule => 0x0F
  | .sweepActive => 0x10
  | .recordFault => 0x11

/-! ## Saturation -/

/-- A sum held at 2^48−1 (R78). -/
def satAdd (a : Quantity) (n : Nat) : Quantity :=
  if a.toNat + n ≤ Config.maxQuantity then BitVec.ofNat 48 (a.toNat + n)
  else BitVec.ofNat 48 Config.maxQuantity

/-- The greater of two quantities. -/
def maxQuantity (a b : Quantity) : Quantity := if a.toNat < b.toNat then b else a

/-- R6: an addition past 2^48−1 leaves the register there and sets its saturated mark. -/
def EnergyRegister.add (r : EnergyRegister) (n : Nat) : EnergyRegister :=
  if r.value.toNat + n ≤ Config.maxQuantity then
    { r with value := BitVec.ofNat 48 (r.value.toNat + n) }
  else { value := BitVec.ofNat 48 Config.maxQuantity, saturated := true }

/-- R6, R117: a 32-bit count that stops at its greatest value. -/
def countUp (w : Word) : Word := if w = BitVec.allOnes 32 then w else w + 1

/-- R114: an exact net held within signed 48 bits. -/
def holdSigned (n : Int) : Int :=
  if n < -(2 ^ 47) then -(2 ^ 47) else if 2 ^ 47 - 1 < n then 2 ^ 47 - 1 else n

/-- R125: a quotient held at 2^32−1. -/
def holdWord (n : Nat) : Word :=
  if n < 2 ^ 32 then BitVec.ofNat 32 n else BitVec.allOnes 32

end Sys2Proof.Machine
end

