-- ==== Sys2Proof/WellFormed.lean ====
section
/-!
DEFINITION. Which terms of `Instr` stand for a command the outside can send: the operand
lengths of the operand table of chapter 10 and the shape of the events.
An operand VALUE out of range is well formed: the part receives it and its rule refuses it.
-/

namespace Sys2Proof

/-- R172: a VOID transaction's first byte, when it is complete, is neither SEND nor READ. -/
def voidCodeOk : Option Byte → Bool
  | none => true
  | some b => b != 0xA7 && b != 0x7A

/-- The checks on a command. -/
def Instr.wf : Instr → Bool
  | .voidTransaction code _ => voidCodeOk code
  | .loadSchedule _ body => decide (24 ≤ body.length) && decide (body.length ≤ 108)
  | .loadHolidays _ body => decide (body.length ≤ 72)
  | .frameReceived _ _ rest => decide (rest.length ≤ 24)
  | .sendTransaction _ => true
  | .readTransaction _ => true
  | .executionEnds => true
  | .readIdentity => true
  | .engineClear => true
  | .setClock _ _ => true
  | .readClock => true
  | .setSubinterval _ => true
  | .readSchedule _ => true
  | .readHolidays => true
  | .setHoldTime _ => true
  | .readLinks => true
  | .registerMeter _ _ _ => true
  | .releaseMeter _ => true
  | .setChannelPolicy _ _ _ _ => true
  | .readChannel _ => true
  | .openAccount _ => true
  | .listAccounts _ => true
  | .readAccount _ => true
  | .readRegisters _ _ => true
  | .readPeaks _ => true
  | .readSweep => true
  | .closePeriod _ => true
  | .fetchClosed _ => true
  | .stageAmendment _ _ => true
  | .commitAmendment _ _ => true
  | .withdrawAmendment _ => true
  | .suspendAccount _ => true
  | .resumeAccount _ => true
  | .retireAccount _ => true
  | .takeAttention => true
  | .dismiss _ _ => true
  | .setAttentionMask _ => true
  | .readAttention _ => true
  | .powerOn => true
  | .mainPowerLoss => true
  | .backupSupplyLoss => true
  | .resetPinAsserted => true
  | .resetPinReleased => true
  | .storageDisturbance _ _ _ => true
  | .secondPulseEdge => true
  | .internalSecond => true
  | .pulseLossFallback => true
  | .idleGap _ => true
  | .lineReturnsToMarking _ => true
  | .lineBreak _ => true
  | .transmissionComplete _ => true
  | .refreshPoint _ => true
  | .holdExpiry _ => true
  | .presenceTimerExpiry _ => true
  | .takeFrameEntry => true
  | .takeMarker => true
  | .sweepVisit => true
  | .characterReceived _ _ _ => true
  | .outageSecondAdvance => true

end Sys2Proof
end

