-- ==== Sys2Proof/Machine/Operands.lean ====
section
/-!
DEFINITION. Operands and response data: the enumeration codes and field encodings of R182, the
request and response envelopes (R175, R176), the link frames (R60, 10.5), the contract image and
its check code (R3), and the operand checks of R15, R37, R51 and R53.
-/

namespace Sys2Proof.Machine

/-! ## Encoding of response data (R182) -/

/-- A one-byte number. -/
def u8 (n : Nat) : Byte := BitVec.ofNat 8 n

/-- A flag: 0 clear, 1 set. -/
def flagByte (f : Bool) : Byte := if f then 1 else 0

/-- An optional item of `len` bytes: a presence byte, then the item or zeros. -/
def optionalBytes (len : Nat) : Option (List Byte) → List Byte
  | some bytes => 1 :: bytes
  | none => 0 :: List.replicate len 0

/-- A list: a count byte, then the entries. -/
def listBytes {α : Type} (f : α → List Byte) (l : List α) : List Byte :=
  u8 l.length :: l.flatMap f

def dateBytes (d : Date) : List Byte := [u8 d.year, u8 d.month, u8 d.day]

def calTimeBytes (t : CalTime) : List Byte :=
  dateBytes t.date ++ [u8 t.hour, u8 t.minute, u8 t.second]

def tripleBytes (t : Triple Quantity) : List Byte :=
  quantityBytes t.active ++ quantityBytes t.lagging ++ quantityBytes t.leading

def AccountState.code : AccountState → Byte
  | .vacant => 0 | .opening => 1 | .active => 2 | .suspended => 3
  | .retiring => 4 | .retired => 5 | .faulted => 6

def ChannelState.code : ChannelState → Byte
  | .unregistered => 0 | .awaiting => 1 | .live => 2 | .silent => 3

def Policy.code : Policy → Byte
  | .holdLast => 0 | .defer => 1

def TimerMode.code : TimerMode → Byte
  | .running => 0 | .frozen => 1 | .stopped => 2

def AmendmentStatus.code : AmendmentStatus → Byte
  | .staged => 1 | .committed _ => 2

def EffectMode.code : EffectMode → Byte
  | .atBoundary => 0 | .atClose => 1

def SecondSource.code : SecondSource → Byte
  | .internal => 0 | .pulse => 1

def DayOfWeek.code : DayOfWeek → Byte
  | .monday => 1 | .tuesday => 2 | .wednesday => 3 | .thursday => 4
  | .friday => 5 | .saturday => 6 | .sunday => 7

def BoundaryKind.code : BoundaryKind → Byte
  | .regular => 0 | .irregular => 1

def BreakState.code : BreakState → Byte
  | .normal => 0 | .broken => 1

def FlowState.code : FlowState → Byte
  | .flowing => 0 | .holdPending => 1 | .held => 2 | .releasePending => 3

/-- Control frame waiting: none 0, HOLD 1, RELEASE 2. -/
def controlCode : Option ControlFrame → Byte
  | none => 0 | some .hold => 1 | some .release => 2

/-- Transmitter: IDLE 0, HOLD 1, RELEASE 2, TIME 3. -/
def Transmitter.code : Transmitter → Byte
  | .idle => 0 | .sendingHold _ => 1 | .sendingRelease => 2 | .sendingTime _ => 3

def ResetCause.code : ResetCause → Byte
  | .powerOn => 0 | .pin => 1 | .engineClear => 2

/-- The amendment as READ ACCOUNT reports it (R20): its status, its effect mode if COMMITTED, its
contract part. -/
def amendmentBytes (a : Amendment) : List Byte :=
  [a.status.code] ++
  optionalBytes 1
    (match a.status with
      | .staged => none
      | .committed m => some [m.code]) ++
  contractBytes a.contract

def peakBytes (p : PeakRecord) : List Byte :=
  wordBytes p.demand ++ wordBytes p.reactive ++ calTimeBytes p.endTime ++
  [flagByte p.estimated, flagByte p.timeUnsure]

/-- An optional peak record: presence byte and 16 bytes. -/
def optionalPeakBytes (p : Option PeakRecord) : List Byte := optionalBytes 16 (p.map peakBytes)

/-- The saturated marks of one register set as one byte (R182). -/
def saturatedByte (r : RegisterSet) : Byte :=
  u8 (r.active.saturated.toNat + 2 * r.lagging.saturated.toNat +
    4 * r.leading.saturated.toNat + 8 * r.excessLagging.saturated.toNat +
    16 * r.excessLeading.saturated.toNat)

/-- The five registers, their saturated marks, the two counts and the peak record. -/
def registerSetBytes (r : RegisterSet) : List Byte :=
  quantityBytes r.active.value ++ quantityBytes r.lagging.value ++
  quantityBytes r.leading.value ++ quantityBytes r.excessLagging.value ++
  quantityBytes r.excessLeading.value ++ [saturatedByte r] ++
  wordBytes r.subintervals ++ wordBytes r.estimatedCount ++ optionalPeakBytes r.peak

def topEntryBytes (e : TopEntry) : List Byte :=
  wordBytes e.demand ++ calTimeBytes e.endTime ++ dateBytes e.day ++
  [flagByte e.estimated, flagByte e.timeUnsure]

def windowEntryBytes (e : WindowEntry) : List Byte := tripleBytes e.net ++ [flagByte e.estimated]

/-- The fields of a closed snapshot in the order of R9. -/
def snapshotBytes (p : Snapshot) : List Byte :=
  halfBytes p.periodCount ++ calTimeBytes p.closeTime ++
  p.registers.toList.flatMap registerSetBytes ++ listBytes topEntryBytes p.topList ++
  wordBytes p.average ++ wordBytes p.ratchetApplied ++ wordBytes p.billingDemand ++
  [flagByte p.finalClose, flagByte p.faulted, flagByte p.estimatedAny]

/-! ## Envelopes (10.5) -/

/-- A message: two head bytes, the content, and the CRC over all of them, high byte first. -/
def envelope (head : Byte) (content : List Byte) : List Byte :=
  (head :: u8 content.length :: content) ++
    halfBytes (crc16 (head :: u8 content.length :: content))

/-- The whole request message of a command; none for an event. -/
def requestMessage (c : Instr) : Option (List Byte) :=
  (requestOf c).map fun r => envelope r.1 r.2

/-- R176: the data in order, cut into segments of 252 bytes; the fuel bounds their number. R176 says
that there are 1 or 2; data above 504 bytes, which only an undetected disturbance of a contract can
bring, is cut into as many as it takes (DESIGN CHOICE, log 32). -/
def cutData : Nat → List Byte → List (List Byte)
  | 0, data => [data]
  | fuel + 1, data =>
    if data.length ≤ Config.segmentData then [data]
    else data.take Config.segmentData :: cutData fuel (data.drop Config.segmentData)

/-- R176: each segment an envelope of its own, 0x80 added where another follows. -/
def segmentsOf (status : Byte) : List (List Byte) → List (List Byte)
  | [] => []
  | [last] => [envelope status last]
  | part :: more => envelope (status + 0x80) part :: segmentsOf status more

/-- The segments of a response. -/
def Response.segments (r : Response) : List (List Byte) :=
  segmentsOf r.status.code (cutData r.data.length r.data)

/-- Every byte of every segment, each segment straight after the one before (R177). -/
def Response.bytes (r : Response) : List Byte := r.segments.flatten

/-- A response with no data. -/
def Response.plain (status : Status) : Response := ⟨status, []⟩

/-- R175 over the collected bytes of a SEND transaction: checks 1 and 2, then the decoding of
checks 3 and 4; the outcome is a dispatched command or an answer without one. -/
def judgeRequest (message : List Byte) : Execution :=
  match message with
  | code :: n :: rest =>
    let body := rest.take n.toNat
    if message.length < 4 ∨ 256 < message.length ∨ n.toNat + 4 ≠ message.length then
      .acted (Response.plain .badFrame)
    else if rest.drop n.toNat ≠ halfBytes (crc16 (code :: n :: body)) then
      .acted (Response.plain .badFrame)
    else
      match decodeRequest code body with
      | .unknownCommand => .acted ⟨.unknownCommand, [code]⟩
      | .badLength => .acted (Response.plain .badOperand)
      | .command c => .dispatched c
  | _ => .acted (Response.plain .badFrame)

/-! ## Link frames (R60, 10.5) -/

/-- Bit 0 of the source status: estimated-at-source. -/
def FrameEntry.estimatedAtSource (e : FrameEntry) : Bool := e.sourceStatus.getLsbD 0

/-- The contents of a 25-character TOTALS frame after checks 3 to 5 of R60, or none where one of
them fails. -/
def totalsFrame (link : Fin 4) : List Byte → Option FrameEntry
  | kind :: sub :: i0 :: i1 :: i2 :: i3 :: i4 :: i5 :: sq :: a0 :: a1 :: a2 :: a3 ::
    g0 :: g1 :: g2 :: g3 :: d0 :: d1 :: d2 :: d3 :: s0 :: s1 :: c0 :: c1 :: [] =>
    if kind ≠ 0xA1 then none
    else if h : sub.toNat ≤ 3 then
      if halfOf c0 c1 ≠ crc16 [kind, sub, i0, i1, i2, i3, i4, i5, sq, a0, a1, a2, a3,
          g0, g1, g2, g3, d0, d1, d2, d3, s0, s1] then none
      else
        some
          { link := link, subAddress := ⟨sub.toNat, by omega⟩,
            identity := quantityOf i0 i1 i2 i3 i4 i5, sequence := sq,
            totals := ⟨wordOf a0 a1 a2 a3, wordOf g0 g1 g2 g3, wordOf d0 d1 d2 d3⟩,
            sourceStatus := halfOf s0 s1 }
    else none
  | _ => none

/-- The checks of R60 in order over the characters of an ended frame; none is a discarded
frame. A frame that is not of 25 characters fails check 2. -/
def checkFrame (link : Fin 4) (collected : List Byte) (charError : Bool) : Option FrameEntry :=
  if charError then none else totalsFrame link collected

/-- The bytes of a TOTALS frame with these contents, its CRC included (10.5). -/
def FrameEntry.bytes (e : FrameEntry) : List Byte :=
  let body : List Byte :=
    [0xA1, u8 e.subAddress.val] ++ quantityBytes e.identity ++ [e.sequence] ++
    wordBytes e.totals.active ++ wordBytes e.totals.lagging ++ wordBytes e.totals.leading ++
    halfBytes e.sourceStatus
  body ++ halfBytes (crc16 body)

/-- The bytes on the transmit line of the frame in transmission (10.5). -/
def Transmitter.bytes : Transmitter → List Byte
  | .idle => []
  | .sendingHold h => [0xB1, u8 h] ++ halfBytes (crc16 [0xB1, u8 h])
  | .sendingRelease => 0xB2 :: halfBytes (crc16 [0xB2])
  | .sendingTime r =>
    let body := 0xB3 :: (calTimeBytes r.time ++ [r.lowByte])
    body ++ halfBytes (crc16 body)

/-! ## Operand values -/

/-- The calendar time an operand names. -/
def calTimeOf (t : TimeImage) : CalTime :=
  ⟨⟨t.year.toNat, t.month.toNat, t.day.toNat⟩, t.hour.toNat, t.minute.toNat, t.second.toNat⟩

/-- The second source of an operand code. -/
def sourceOf (code : Byte) : Option SecondSource :=
  if code = 0 then some .internal else if code = 1 then some .pulse else none

/-- The policy of an operand code. -/
def policyOf (code : Byte) : Option Policy :=
  if code = 0 then some .holdLast else if code = 1 then some .defer else none

/-- The effect mode of an operand code. -/
def modeOf (code : Byte) : Option EffectMode :=
  if code = 0 then some .atBoundary else if code = 1 then some .atClose else none

/-- The kind of a rank (R162, R170). -/
def kindOfRank (rank : Nat) : Option AttnKind :=
  [AttnKind.sweepLate, .negativeNet, .channelResumed, .clockIrregular, .amendmentApplied,
   .closeDone, .demandExceeded, .substitutionExcess, .linkError, .implausible, .foreignMeter,
   .channelSilent, .linkBreak, .queueOverrun, .recordFault, .retentionLost][rank]?

/-- The sixteen kinds in ascending order of rank, in which READ ATTENTION counts them (the
model's order, log 12). -/
def allKinds : List AttnKind := (List.range 16).filterMap kindOfRank

/-! ## The contract image and its check (R2, R3, R15, R182) -/

/-- R3: the check code is the CRC over the 33 bytes of the image as stored. -/
def checkCodeOf (c : ContractImage) : Half := crc16 (contractBytes c)

/-- A sign code: plus 1, minus 2. -/
def signOk (sign : Byte) : Bool := sign == 1 || sign == 2

/-- The number of peaks averaged is in range. -/
def peaksInRange (n : Nat) : Bool := decide (1 ≤ n) && decide (n ≤ 4)

/-- R2: the ratchet percent is 0 or 50 to 100. -/
def percentInRange (n : Nat) : Bool := n == 0 || (decide (50 ≤ n) && decide (n ≤ 100))

/-- R15 step 1. -/
def contractFieldsOk (c : ContractImage) : Bool :=
  c.account != 0 && decide (c.schedule.toNat ≤ 7) &&
  decide (1 ≤ c.feedCount.toNat) && decide (c.feedCount.toNat ≤ 6) &&
  c.terms.all (fun t => decide (t.channel.toNat ≤ 15) && signOk t.sign) &&
  c.terms.any (fun t => t.sign == 1) &&
  decide (1 ≤ c.windowLength.toNat) && decide (c.windowLength.toNat ≤ 15) &&
  decide (c.allowance.toNat ≤ 2000) && peaksInRange c.peaksAveraged.toNat &&
  percentInRange c.ratchetPercent.toNat &&
  decide (1 ≤ c.ratchetPeriods.toNat) && decide (c.ratchetPeriods.toNat ≤ 12)

/-- R15 step 2 holds: no channel is named in two feed terms. -/
def noDuplicateFeed : List FeedPlace → Bool
  | [] => true
  | t :: ts => ts.all (fun u => u.channel != t.channel) && noDuplicateFeed ts

/-- The schedule slot of a number: EMPTY is `some none`, a number above 7 is `none`. -/
def State.scheduleSlot (s : State) (n : Nat) : Option (Option Schedule) :=
  if h : n < 8 then some s.tariff.schedules[n] else none

/-- Whether a schedule number names a LOADED slot. -/
def State.scheduleLoaded (s : State) (n : Nat) : Bool :=
  match s.scheduleSlot n with
  | some (some _) => true
  | _ => false

/-- Whether a channel number names a registered channel. -/
def State.registered (s : State) (n : Nat) : Bool :=
  if h : n < 16 then decide (s.channels[n].state ≠ .unregistered) else false

/-- The contract check of R15: the status of the first step that fails, or none. -/
def State.contractCheck (s : State) (c : ContractImage) : Option Status :=
  if ¬contractFieldsOk c then some .badOperand
  else if ¬noDuplicateFeed c.terms then some .duplicateFeed
  else if ¬s.scheduleLoaded c.schedule.toNat then some .badSchedule
  else if ¬c.terms.all (fun t => s.registered t.channel.toNat) then some .channelUnregistered
  else none

/-! ## LOAD SCHEDULE and LOAD HOLIDAYS operands (R51, R53) -/

/-- A switch point as carried: minute and period code. -/
structure RawPoint where
  minute : Nat
  period : Nat
  deriving DecidableEq, Repr

/-- The points of one day program, three bytes each. -/
def rawPoints : Nat → List Byte → List RawPoint
  | n + 1, a :: b :: c :: rest => ⟨(halfOf a b).toNat, c.toNat⟩ :: rawPoints n rest
  | _, _ => []

/-- Split `n` day programs off the bytes by the counts they carry; none where the length does
not agree with the counts. -/
def rawPrograms : Nat → List Byte → Option (List (List RawPoint))
  | 0, [] => some []
  | 0, _ :: _ => none
  | _ + 1, [] => none
  | n + 1, count :: rest =>
    if rest.length < 3 * count.toNat then none
    else (rawPrograms n (rest.drop (3 * count.toNat))).map
      (rawPoints count.toNat rest :: ·)

/-- A refusal BAD_SCHEDULE names a part, an index and a position (R51). -/
structure ScheduleFailure where
  part : Byte
  index : Byte
  position : Byte
  deriving DecidableEq, Repr

/-- The first attribute byte that is neither 0 nor 1; `k` counts the bytes examined before. -/
def badAttribute (k : Nat) : List Byte → Option ScheduleFailure
  | [] => none
  | a :: rest =>
    if a = 0 ∨ a = 1 then badAttribute (k + 1) rest
    else some ⟨0, u8 (k / 2), u8 (k % 2 + 1)⟩

/-- The position of the first point at fault, numbered from `position`; `previous` is the minute
of the point before (none for the first point, which is at minute 0). -/
def badPoint (length position : Nat) (previous : Option Nat) : List RawPoint → Option Nat
  | [] => none
  | p :: rest =>
    let orderOk : Bool := match previous with
      | none => p.minute == 0
      | some m => decide (m < p.minute)
    if orderOk ∧ p.minute ≤ 1439 ∧ p.period ≤ 3 ∧ 60 * p.minute % length = 0 then
      badPoint length (position + 1) (some p.minute) rest
    else some position

/-- The position at fault in one day program: 0 for its point count. -/
def badProgram (length : Nat) (points : List RawPoint) : Option Nat :=
  if points.length = 0 ∨ 8 < points.length then some 0 else badPoint length 1 none points

/-- The first day program at fault, examined in the order carried. -/
def badPrograms (length dayType : Nat) : List (List RawPoint) → Option ScheduleFailure
  | [] => none
  | points :: rest =>
    match badProgram length points with
    | some position => some ⟨1, u8 dayType, u8 position⟩
    | none => badPrograms length (dayType + 1) rest

/-- A checked point as it is stored. -/
def storedPoint (p : RawPoint) : SwitchPoint := ⟨p.minute, Fin.ofNat 4 p.period⟩

/-- The day program at a place of the four carried. -/
def storedProgram (programs : List (List RawPoint)) (dayType : Nat) : List SwitchPoint :=
  (programs.getD dayType []).map storedPoint

/-- The schedule that checked attribute bytes and day programs make. -/
def storedSchedule (attributes : List Byte) (programs : List (List RawPoint)) : Schedule :=
  { periods := Vector.ofFn fun k : Fin 4 =>
      ⟨attributes.getD (2 * k.val) 0 == 1, attributes.getD (2 * k.val + 1) 0 == 1⟩
    weekday := storedProgram programs 0
    saturday := storedProgram programs 1
    sunday := storedProgram programs 2
    holiday := storedProgram programs 3 }

/-- The outcome of checks 1 and 2 of R51. -/
inductive ScheduleCheck where
  | badOperand
  | badSchedule (failure : ScheduleFailure)
  | schedule (slot : Fin 8) (contents : Schedule)
  deriving DecidableEq, Repr

/-- R51 steps 1 and 2, against the subinterval length in force. -/
def checkSchedule (length : Nat) (slot : Byte) (body : List Byte) : ScheduleCheck :=
  if h : slot.toNat < 8 then
    match rawPrograms 4 (body.drop 8) with
    | none => .badOperand
    | some programs =>
      match badAttribute 0 (body.take 8) with
      | some f => .badSchedule f
      | none =>
        match badPrograms length 0 programs with
        | some f => .badSchedule f
        | none => .schedule ⟨slot.toNat, h⟩ (storedSchedule (body.take 8) programs)
  else .badOperand

/-- The dates carried, three bytes each; none where bytes are left over. -/
def rawDates : List Byte → Option (List Date)
  | [] => some []
  | a :: b :: c :: rest => (rawDates rest).map (⟨a.toNat, b.toNat, c.toNat⟩ :: ·)
  | _ => none

/-- Strictly ascending dates (R46). -/
def datesAscend : List Date → Bool
  | a :: b :: rest => decide (a.key < b.key) && datesAscend (b :: rest)
  | _ => true

/-- R53 step 1. -/
def checkHolidays (count : Byte) (body : List Byte) : Option (List Date) :=
  if 24 < count.toNat then none
  else
    match rawDates body with
    | none => none
    | some dates =>
      if dates.length = count.toNat ∧ dates.all Date.valid ∧ datesAscend dates then some dates
      else none

end Sys2Proof.Machine
end

