-- ==== Sys2Proof/Machine/Ops.lean ====
section
/-!
DEFINITION. The operations the commands share: field updates, the execution of a request
(R173 to R176), presence timers and link flow control (R68 to R74, R80), the intake queue's
marks (R64, R66), the held marker (R108) and the making of a boundary (R33 to R35).
-/

namespace Sys2Proof.Machine

/-! ## Updates of one field -/

def State.setDevice (x : Device) (s : State) : State := { s with device := x }
def State.setClock (x : Clock) (s : State) : State := { s with clock := x }
def State.setTariff (x : Tariff) (s : State) : State := { s with tariff := x }
def State.setLinks (x : Vector Link 4) (s : State) : State := { s with links := x }
def State.setHoldTime (x : Nat) (s : State) : State := { s with holdTime := x }
def State.setQueue (x : IntakeQueue) (s : State) : State := { s with queue := x }
def State.setChannels (x : Vector Channel 16) (s : State) : State := { s with channels := x }
def State.setSweep (x : Sweep) (s : State) : State := { s with sweep := x }
def State.setSlots (x : Vector Account 32) (s : State) : State := { s with slots := x }
def State.setDirectory (x : List DirectoryEntry) (s : State) : State := { s with directory := x }
def State.setAttention (x : Attention) (s : State) : State := { s with attention := x }
def State.setPort (x : Port) (s : State) : State := { s with port := x }
def State.setPending (x : List Instr) (s : State) : State := { s with pending := x }

/-- Replace one channel record. -/
def State.setChannel (k : Fin 16) (c : Channel) (s : State) : State :=
  s.setChannels (s.channels.set k c)

/-- Replace one account record. -/
def State.setSlot (i : Fin 32) (a : Account) (s : State) : State :=
  s.setSlots (s.slots.set i a)

/-- Replace every channel record by a function of it. -/
def State.mapChannels (f : Fin 16 → Channel → Channel) (s : State) : State :=
  s.setChannels (Vector.ofFn fun k => f k s.channels[k])

/-- The four links, lowest first. -/
def linkNumbers : List (Fin 4) := [0, 1, 2, 3]

/-- The sixteen channels, lowest first. -/
def channelNumbers : List (Fin 16) := List.finRange 16

/-- The 32 slots, lowest first. -/
def slotNumbers : List (Fin 32) := List.finRange 32

/-- Channel 4n+k is sub-address k on link n. -/
def channelAt (n sub : Fin 4) : Fin 16 := ⟨4 * n.val + sub.val, by omega⟩

/-- The link of a channel. -/
def linkOf (k : Fin 16) : Fin 4 := ⟨k.val / 4, by omega⟩

/-! ## Executing a request -/

/-- Main power is present and the reset pin is not held: the part takes frames and requests
(R184, R188). -/
def State.awake (s : State) : Bool := s.device.mainPower && !s.device.resetHeld

/-- Whether the act of this request can be made: it has been dispatched and has not acted; or
the port is not EXECUTING, and the command stands for its request taken and its act (log 2). -/
def State.accepts (c : Instr) (s : State) : Bool :=
  s.awake &&
  match s.port.state with
  | .idle => true
  | .responseReady _ => true
  | .executing (.dispatched c') => decide (c' = c)
  | .executing (.acted _) => false

/-- The act is made: its outcome waits in the port for the response to be composed (R176). -/
def answer (r : State × Response) : State :=
  r.1.setPort { r.1.port with state := .executing (.acted r.2) }

/-- The act of a request command; no event where it can not be made. -/
def State.request (c : Instr) (act : State → State × Response) (s : State) : State :=
  if s.accepts c then answer (act s) else s

/-- A refusal that changes nothing. -/
def refuse (status : Status) (s : State) : State × Response := (s, Response.plain status)

/-- OK with data. -/
def okWith (data : List Byte) (s : State) : State × Response := (s, ⟨.ok, data⟩)

/-! ## Presence timers (R74, R80) -/

/-- R80: a timer freezes and keeps its remaining time; in UNREGISTERED nothing reaches it. -/
def freezeTimer (c : Channel) : Channel :=
  if c.state = .unregistered then c else { c with timerMode := .frozen }

/-- R80: a reload sets the remaining time to the presence timeout; the timer then runs if the
link is FLOWING and is frozen if it is not. -/
def reloadTimer (flowing : Bool) (c : Channel) : Channel :=
  if c.state = .unregistered then c
  else
    { c with
      timerHalves := 2 * c.timeout, timerMode := if flowing then .running else .frozen }

/-- Whether a link is FLOWING. -/
def State.flowing (s : State) (n : Fin 4) : Bool := decide (s.links[n].flow = .flowing)

/-- Replace a link record; its four channels' presence timers freeze when the flow state leaves
FLOWING and are reloaded when it returns to FLOWING (R74). -/
def State.changeLink (n : Fin 4) (l : Link) (s : State) : State :=
  let was := s.flowing n
  let now := decide (l.flow = .flowing)
  let t := s.setLinks (s.links.set n l)
  if was && !now then
    t.mapChannels fun k c => if linkOf k = n then freezeTimer c else c
  else if !was && now then
    t.mapChannels fun k c => if linkOf k = n then reloadTimer true c else c
  else t

/-! ## Transmitter and flow control of one link (R68 to R73) -/

/-- R70: an IDLE transmitter begins the waiting control frame, or else the waiting TIME frame; a
HOLD carries the hold time setting in force when it begins. -/
def Link.beginNext (holdTime : Nat) (l : Link) : Link :=
  match l.transmitter, l.waitingControl, l.waitingTime with
  | .idle, some .hold, _ =>
    { l with waitingControl := none, transmitter := .sendingHold holdTime }
  | .idle, some .release, _ =>
    { l with waitingControl := none, transmitter := .sendingRelease }
  | .idle, none, some r => { l with waitingTime := none, transmitter := .sendingTime r }
  | _, _, _ => l

/-- A control frame is made to wait, the flow state changes, and the frame begins if the
transmitter is IDLE. -/
def Link.sendControl (holdTime : Nat) (f : ControlFrame) (flow : FlowState) (l : Link) : Link :=
  Link.beginNext holdTime { l with waitingControl := some f, flow := flow }

/-- Whether the refresh point of the running hold timer has passed: half of the hold time, which
is as many half seconds as the hold time has seconds (R72). -/
def Link.refreshPassed (l : Link) : Bool :=
  match l.holdTimer with
  | some halves => decide (l.lastHold ≤ halves)
  | none => false

/-- R68: a hold request reaches a link. -/
def Link.holdRequest (holdTime : Nat) (l : Link) : Link :=
  match l.flow with
  | .flowing => l.sendControl holdTime .hold .holdPending
  | .holdPending => l
  | .held => l
  | .releasePending =>
    if l.waitingControl = some .release then
      match l.transmitter with
      | .sendingHold _ => { l with waitingControl := none, flow := .holdPending }
      | _ =>
        if l.refreshPassed then l.sendControl holdTime .hold .held
        else { l with waitingControl := none, flow := .held }
    else l.sendControl holdTime .hold .holdPending

/-- R69: a release request reaches a link (log 11 for a HOLD waiting behind a HOLD). -/
def Link.releaseRequest (holdTime : Nat) (l : Link) : Link :=
  match l.flow with
  | .flowing => l
  | .holdPending =>
    if l.waitingControl = some .hold then
      match l.transmitter with
      | .sendingRelease => { l with waitingControl := none, flow := .releasePending }
      | _ => { l with waitingControl := none, flow := .flowing }
    else l.sendControl holdTime .release .releasePending
  | .held => l.sendControl holdTime .release .releasePending
  | .releasePending => l

/-- R71: the frame in transmission completes, the next one begins, and the completion acts by
the kind of frame. -/
def Link.complete (holdTime : Nat) (l : Link) : Link :=
  let next := Link.beginNext holdTime { l with transmitter := .idle }
  match l.transmitter with
  | .idle => l
  | .sendingHold carried =>
    { next with
      holdTimer := some 0, lastHold := carried,
      flow := if l.flow = .releasePending then .releasePending else .held }
  | .sendingRelease =>
    { next with
      holdTimer := none, flow := if l.flow = .releasePending then .flowing else l.flow }
  | .sendingTime _ => next

/-- R72: what happens at the refresh point. -/
def Link.refresh (holdTime : Nat) (congested : Bool) (l : Link) : Link :=
  if l.flow = .held ∧ congested = true ∧ l.waitingControl = none then
    l.sendControl holdTime .hold .held
  else l

/-- R73: the hold expires. -/
def Link.expire (l : Link) : Link :=
  match l.flow with
  | .held => { l with holdTimer := none, flow := .flowing, waitingControl := none }
  | .releasePending => { l with holdTimer := none, flow := .flowing, waitingControl := none }
  | .holdPending => { l with holdTimer := none }
  | .flowing => { l with holdTimer := none }

/-- R70: a TIME request makes a TIME frame wait, in place of an older waiting one. -/
def Link.requestTime (holdTime : Nat) (r : TimeRequest) (l : Link) : Link :=
  Link.beginNext holdTime { l with waitingTime := some r }

/-- Apply one change to every link, lowest first. -/
def State.eachLink (f : Link → Link) (s : State) : State :=
  linkNumbers.foldl (fun t n => t.changeLink n (f t.links[n])) s

/-! ## Intake queue (R63 to R66, R108) -/

/-- A marker stands at the head: it is held and no frame entry is ahead of it (R63). -/
def State.markerAtHead (s : State) : Bool :=
  match s.queue.marker with
  | some q => q.position == 0
  | none => false

/-- R108: a marker has come to stand at the head; while a sweep runs it is held and SWEEP_LATE is
latched. -/
def State.noteMarkerAtHead (s : State) : State :=
  if s.markerAtHead && s.sweep.running then
    (s.setSweep { s.sweep with heldMarker := true }).latch .sweepLate 0
  else s

/-- R64, R66: a good frame is offered to the queue. -/
def State.offerFrame (e : FrameEntry) (s : State) : State :=
  if s.queue.entries.length < Config.queueCapacity then
    let t := s.setQueue { s.queue with entries := s.queue.entries ++ [e] }
    if t.queue.entries.length = Config.highMark ∧ t.queue.congested = false then
      (t.setQueue { t.queue with congested := true }).eachLink (Link.holdRequest t.holdTime)
    else t
  else
    (s.changeLink e.link { s.links[e.link] with overrunMark := true }).latch
      .queueOverrun e.link

/-- R65, R66: the head frame entry leaves the queue; a marker behind it moves one place nearer,
and may come to stand at the head. -/
def State.removeHead (rest : List FrameEntry) (s : State) : State :=
  let t := s.setQueue { s.queue with
    entries := rest,
    marker := s.queue.marker.map fun q => { q with position := q.position - 1 } }
  let u := if t.queue.entries.length = Config.lowMark ∧ t.queue.congested = true then
      (t.setQueue { t.queue with congested := false }).eachLink
        (Link.releaseRequest t.holdTime)
    else t
  u.noteMarkerAtHead

/-! ## Boundaries (R33 to R35) -/

/-- R33 step 3, R35: place the marker at the tail, or merge into the one that waits. -/
def State.placeMarker (m : Marker) (s : State) : State :=
  if s.clock.markerWaiting then
    (s.setQueue { s.queue with
      marker := s.queue.marker.map fun q =>
        { q with marker := { m with kind := .irregular } } }).latch .clockIrregular 0
  else
    ((s.setQueue { s.queue with marker := some ⟨m, s.queue.entries.length⟩ }).setClock
      { s.clock with markerWaiting := true }).noteMarkerAtHead

/-- R33: the clock makes a boundary of a kind at a time. -/
def State.makeBoundary (t : CalTime) (kind : BoundaryKind) (s : State) : State :=
  let n := s.clock.boundaryNumber + 1
  let u := s.setClock { s.clock with boundaryNumber := n, lastBoundary := t }
  (u.placeMarker ⟨n, t, kind⟩).eachLink
    (Link.requestTime s.holdTime ⟨t, n.setWidth 8⟩)

end Sys2Proof.Machine
end

