-- ==== Sys2Proof/Machine/ChannelOps.lean ====
section
/-!
DEFINITION. The channel unit's acts on one channel record: judging a frame (R81 to R87), silence
and resume (R88 to R92), the seal (R93 to R96), a reset (R103), and the reference counts (R97,
R154).
-/

namespace Sys2Proof.Machine

/-- What an act on a channel answers: the record, and the kinds of condition it latches. -/
abbrev ChannelOut := Channel × List AttnKind

/-- Add three amounts to three sums, each held at 2^48−1 (R78). -/
def addTriple (q : Triple Quantity) (n : Triple Nat) : Triple Quantity := q.zip satAdd n

/-! ## Taking a frame -/

/-- R82, R86, R87: an accepted frame is recorded as the last one. -/
def recordFrame (second : Word) (e : FrameEntry) (c : Channel) : Channel :=
  { c with
    lastTotals := some e.totals, lastSequence := some e.sequence, lastSecond := some second,
    implausibleRun := 0 }

/-- R83: the sequence distance (log 26 where no sequence is recorded). -/
def sequenceDistance (e : FrameEntry) (c : Channel) : Byte :=
  e.sequence - c.lastSequence.getD 0

/-- R84: the three increments, modulo 2^32 (log 26 where no totals are recorded). -/
def increments (e : FrameEntry) (c : Channel) : Triple Word :=
  e.totals.zip (· - ·) (c.lastTotals.getD (Triple.same 0))

/-- R85: the elapsed time, modulo 2^32, or none where the check is not made. -/
def elapsedSeconds (second : Word) (c : Channel) : Option Word := c.lastSecond.map (second - ·)

/-- R85: some increment times 3600 is greater than the rated power times 2 times (e + 1). -/
def implausible (second : Word) (e : FrameEntry) (c : Channel) : Bool :=
  match elapsedSeconds second c with
  | none => false
  | some elapsed =>
    (increments e c).any fun d =>
      decide ((c.ratedPower.getD 0).toNat * 2 * (elapsed.toNat + 1) < d.toNat * 3600)

/-- The remaining credit of some component is dropped (R90). -/
def fallsShort (d : Triple Nat) (credit : Triple Quantity) : Bool :=
  decide (d.active < credit.active.toNat) || decide (d.lagging < credit.lagging.toNat) ||
  decide (d.leading < credit.leading.toNat)

/-- R90: what is left of an increment after the set-off against the credit. -/
def setOff (d : Triple Nat) (credit : Triple Quantity) : Triple Nat :=
  d.zip (fun n c => n - c.toNat) credit

/-- R89 to R91: a SILENT channel resumes with these increments. -/
def resume (d : Triple Nat) (c : Channel) : ChannelOut :=
  let live := { c with
    state := .live, silenceSpannedSeal := false, credit := Triple.same 0 }
  match c.policy with
  | .holdLast =>
    ({ live with openWindow := addTriple c.openWindow (setOff d c.credit) },
      if fallsShort d c.credit then [.channelResumed, .substitutionExcess]
      else [.channelResumed])
  | .defer =>
    if c.silenceSpannedSeal then
      ({ live with openCatchUp := addTriple c.openCatchUp d }, [.channelResumed])
    else ({ live with openWindow := addTriple c.openWindow d }, [.channelResumed])

/-- The increments go where the channel's state puts them (R87). -/
def placeIncrements (d : Triple Nat) (c : Channel) : ChannelOut :=
  if c.state = .silent then resume d c
  else ({ c with openWindow := addTriple c.openWindow d }, [])

/-- R87: a plausible frame is accepted. -/
def acceptFrame (second : Word) (e : FrameEntry) (c : Channel) : ChannelOut :=
  placeIncrements ((increments e c).map BitVec.toNat)
    (recordFrame second e { c with openEstimated := c.openEstimated || e.estimatedAtSource })

/-- R86: the channel re-baselines; a SILENT channel resumes with increments of zero. -/
def rebaseline (second : Word) (e : FrameEntry) (c : Channel) : ChannelOut :=
  let r := recordFrame second e { c with openEstimated := true }
  if c.state = .silent then resume (Triple.same 0) r else (r, [])

/-- R85: the run rises; the third implausible frame re-baselines. -/
def implausibleFrame (second : Word) (e : FrameEntry) (c : Channel) : ChannelOut :=
  if c.implausibleRun + 1 < 3 then
    ({ c with implausibleRun := c.implausibleRun + 1 }, [.implausible])
  else ((rebaseline second e c).1, .implausible :: (rebaseline second e c).2)

/-- R82: the baseline of an AWAITING channel. -/
def baseline (second : Word) (e : FrameEntry) (c : Channel) : Channel :=
  { recordFrame second e c with state := .live }

/-- R83 to R87 for a frame in LIVE or SILENT. -/
def judgeSequence (second : Word) (e : FrameEntry) (c : Channel) : ChannelOut :=
  if sequenceDistance e c = 0 ∨ 128 ≤ (sequenceDistance e c).toNat then (c, [])
  else if implausible second e c then implausibleFrame second e c
  else acceptFrame second e c

/-- R81: the judgement of a frame taken for a channel. -/
def judgeFrame (flowing : Bool) (second : Word) (e : FrameEntry) (c : Channel) : ChannelOut :=
  if c.state = .unregistered then (c, [])
  else if c.identity ≠ some e.identity then (c, [.foreignMeter])
  else
    let r := if flowing then reloadTimer true c else c
    if c.state = .awaiting then (baseline second e r, []) else judgeSequence second e r

/-- The channel a frame entry names. -/
def FrameEntry.channel (e : FrameEntry) : Fin 16 := channelAt e.link e.subAddress

/-- The channel unit takes a frame entry. -/
def State.takeFrame (e : FrameEntry) (s : State) : State :=
  let out := judgeFrame (s.flowing e.link) s.clock.monotonic e s.channels[e.channel]
  (s.setChannel e.channel out.1).latchAll out.2 e.channel

/-! ## Silence -/

/-- R88: the record of a LIVE channel that goes SILENT. -/
def silenced (c : Channel) : Channel := { c with state := .silent, wasSilent := true }

/-- R88: a LIVE channel goes SILENT and the condition is latched; another does not change. -/
def State.silence (k : Fin 16) (s : State) : State :=
  if s.channels[k].state = .live then
    (s.setChannel k (silenced s.channels[k])).latch .channelSilent k
  else s

/-- R61: every LIVE channel of a link goes SILENT. -/
def State.silenceLink (n : Fin 4) (s : State) : State :=
  [0, 1, 2, 3].foldl (fun t sub => t.silence (channelAt n sub)) s

/-- R80: the presence timer of a channel expires. -/
def State.expirePresence (k : Fin 16) (s : State) : State :=
  (s.setChannel k { s.channels[k] with timerMode := .stopped, timerHalves := 0 }).silence k

/-! ## The seal -/

/-- R93: the open parts after the seal. -/
def clearOpen (c : Channel) : Channel :=
  { c with openWindow := Triple.same 0, openCatchUp := Triple.same 0, openEstimated := false }

/-- R95, R96: the greater of the open window component and the reference component. -/
def filledWindow (c : Channel) : Triple Quantity := c.openWindow.zip maxQuantity c.reference

/-- R95: the credit raised by the amounts substituted. -/
def raisedCredit (c : Channel) : Triple Quantity :=
  addTriple c.credit
    ((filledWindow c).zip (fun w o => w.toNat - o.toNat) c.openWindow)

/-- R94: the seal of a LIVE channel, before the open parts are cleared. -/
def sealLive (c : Channel) : Channel :=
  { c with
    sealedWindow := c.openWindow, sealedCatchUp := c.openCatchUp,
    sealedEstimated := c.openEstimated,
    reference := if !c.wasSilent && !c.openEstimated then c.openWindow else c.reference,
    wasSilent := false }

/-- R95: the seal of a SILENT channel. -/
def sealSilent (c : Channel) : Channel :=
  match c.policy with
  | .holdLast =>
    { c with
      sealedWindow := filledWindow c, credit := raisedCredit c, sealedCatchUp := c.openCatchUp,
      sealedEstimated := true, silenceSpannedSeal := true, wasSilent := true }
  | .defer =>
    { c with
      sealedWindow := c.openWindow, sealedCatchUp := c.openCatchUp,
      sealedEstimated := true, silenceSpannedSeal := true, wasSilent := true }

/-- R96: the seal of an AWAITING channel. -/
def sealAwaiting (c : Channel) : Channel :=
  { c with
    sealedWindow := if c.policy = .holdLast then filledWindow c else c.openWindow,
    sealedCatchUp := c.openCatchUp, sealedEstimated := true, wasSilent := true }

/-- R96: an UNREGISTERED channel seals zeros. -/
def sealUnregistered (c : Channel) : Channel :=
  { c with
    sealedWindow := Triple.same 0, sealedCatchUp := Triple.same 0, sealedEstimated := false }

/-- R93: the seal of one channel. -/
def sealChannel (c : Channel) : Channel :=
  clearOpen
    (match c.state with
    | .live => sealLive c
    | .silent => sealSilent c
    | .awaiting => sealAwaiting c
    | .unregistered => sealUnregistered c)

/-- R93: all sixteen channels are sealed together. -/
def State.sealAll (s : State) : State := s.mapChannels fun _ c => sealChannel c

/-! ## Resets (R103) -/

/-- R103: a channel after ENGINE CLEAR; was-silent is set, since no channel is then LIVE
(log 10 for UNREGISTERED). -/
def channelAfterClear (c : Channel) : Channel :=
  reloadTimer true
    { c with state := if c.state = .live then .silent else c.state, wasSilent := true }

/-- R103: a channel after power-on with retention valid and after the reset pin. -/
def channelAfterRestart (c : Channel) : Channel :=
  { channelAfterClear c with lastSecond := none, implausibleRun := 0 }

/-- Latch CHANNEL_SILENT for every channel that satisfies a test. -/
def State.latchSilent (test : Fin 16 → Bool) (s : State) : State :=
  channelNumbers.foldl (fun t k => if test k then t.latch .channelSilent k else t) s

/-- R103: every channel takes its value after a reset, and CHANNEL_SILENT is latched for each
that was LIVE. -/
def State.resetChannels (f : Channel → Channel) (s : State) : State :=
  (s.mapChannels fun _ c => f c).latchSilent fun k => decide (s.channels[k].state = .live)

/-! ## Reference counts (R97, R154) -/

/-- How many feed terms name a channel. -/
def termsNaming (k : Fin 16) (terms : List FeedPlace) : Nat :=
  terms.countP fun t => t.channel.toNat == k.val

/-- R97: one is added for each feed term. R97 bounds the count at 64 and says nothing of a count that
undetected disturbances of stored feed lists carry above it: here it grows without bound, and READ
CHANNEL shows it modulo 256 (DESIGN CHOICE, log 28). -/
def State.addTerms (terms : List FeedPlace) (s : State) : State :=
  s.mapChannels fun k c => { c with referenceCount := c.referenceCount + termsNaming k terms }

/-- A count from which so many terms are released (log 28 where it counts fewer). -/
def countReleased (count released : Nat) : Nat :=
  if released ≤ count then count - released else Config.freeCount count released

/-- R97: one is removed for each feed term. -/
def State.releaseTerms (terms : List FeedPlace) (s : State) : State :=
  s.mapChannels fun k c =>
    { c with referenceCount := countReleased c.referenceCount (termsNaming k terms) }

/-- R10: the feed terms of the contract part count in these states. -/
def AccountState.counted : AccountState → Bool
  | .opening => true
  | .active => true
  | .suspended => true
  | .retiring => true
  | .faulted => true
  | .vacant => false
  | .retired => false

/-- The feed terms of a held amendment. -/
def Account.amendmentTerms (a : Account) : List FeedPlace :=
  match a.amendment with
  | some m => m.contract.terms
  | none => []

/-- R97: the feed terms of an account that count. -/
def Account.countedTerms (a : Account) : List FeedPlace :=
  (if a.state.counted then a.contract.terms else []) ++ a.amendmentTerms

/-- Every feed term that counts, over all slots. -/
def State.allTerms (s : State) : List FeedPlace :=
  slotNumbers.flatMap fun i => s.slots[i].countedTerms

/-- R154: every reference count is set afresh; a term naming an UNREGISTERED channel or one
above 15 is not counted. -/
def State.recount (s : State) : State :=
  let terms := s.allTerms
  s.mapChannels fun k c =>
    { c with
      referenceCount := if c.state = .unregistered then 0 else termsNaming k terms }

end Sys2Proof.Machine
end

