-- ==== Sys2Proof/Machine/AccountOps.lean ====
section
/-!
DEFINITION. The account record's arithmetic: directory and verification (R12, R21, R22), period
lookup and attributes (R47 to R50), the fold (R114 to R119), demand (R125, R129 to R135), the top
list under a new contract (R136), the figures of a close (R137 to R146) and the application of an
amendment (R152). Each works on one record and reads the rest of the part.
-/

namespace Sys2Proof.Machine

/-! ## Directory and verification -/

/-- R13 stage 1: the slot of an account number. -/
def State.lookup (account : Word) (s : State) : Option (Fin 32) :=
  (s.directory.find? fun e => e.account == account).map DirectoryEntry.slot

/-- The account number of a slot's directory entry. -/
def State.directoryAccount (i : Fin 32) (s : State) : Option Word :=
  (s.directory.find? fun e => e.slot == i).map DirectoryEntry.account

/-- R10: the swept states. -/
def AccountState.swept : AccountState → Bool
  | .opening => true
  | .active => true
  | .suspended => true
  | .retiring => true
  | .vacant => false
  | .retired => false
  | .faulted => false

/-- R21: the check code agrees, and so does the account number with the directory's. -/
def State.verified (i : Fin 32) (s : State) : Bool :=
  decide (checkCodeOf s.slots[i].contract = s.slots[i].checkCode) &&
  decide (s.directoryAccount i = some s.slots[i].contract.account)

/-- R22: the record on entry to FAULTED. -/
def faultedRecord (a : Account) : Account :=
  { a with
    state := .faulted, closePending := false, suspendPending := false, resumePending := false }

/-- R22: an account becomes FAULTED, and RECORD_FAULT is latched. -/
def State.enterFaulted (i : Fin 32) (s : State) : State :=
  (s.setSlot i (faultedRecord s.slots[i])).latch .recordFault i

/-- R12: an entry is inserted at the place its account number takes in the order. -/
def insertEntry (e : DirectoryEntry) : List DirectoryEntry → List DirectoryEntry
  | [] => [e]
  | f :: fs => if e.account.toNat < f.account.toNat then e :: f :: fs else f :: insertEntry e fs

/-- R12: the entry of a slot is removed. -/
def removeEntry (i : Fin 32) (d : List DirectoryEntry) : List DirectoryEntry :=
  d.filter fun e => e.slot != i

/-! ## Tariff lookup -/

/-- R47, R48: the day program that governs a date. -/
def Schedule.program (holidays : List Date) (d : Date) (p : Schedule) : List SwitchPoint :=
  if d ∈ holidays then p.holiday
  else
    match d.dayOfWeek with
    | .saturday => p.saturday
    | .sunday => p.sunday
    | _ => p.weekday

/-- R48: the point with the greatest minute at or before a time of day. -/
def pointInForce (seconds : Nat) : List SwitchPoint → Option SwitchPoint
  | [] => none
  | p :: rest =>
    match pointInForce seconds rest with
    | none => if 60 * p.minute ≤ seconds then some p else none
    | some q => if 60 * p.minute ≤ seconds ∧ q.minute < p.minute then some p else some q

/-- R48: the period of a point in force; a stored program always has one (log 26). -/
def periodOf (p : Option SwitchPoint) : Fin 4 :=
  match p with
  | some q => q.period
  | none => 0

/-- R48: the period lookup; an EMPTY slot gives period 0. -/
def State.lookupPeriod (schedule : Byte) (t : CalTime) (s : State) : Fin 4 :=
  match s.scheduleSlot schedule.toNat with
  | none => Config.freePeriod schedule
  | some none => 0
  | some (some p) => periodOf (pointInForce t.timeOfDay (p.program s.tariff.holidays t.date))

/-- R50: the attributes of a period, read from the schedule as it stands. -/
def State.attributes (schedule : Byte) (period : Fin 4) (s : State) : PeriodAttributes :=
  match s.scheduleSlot schedule.toNat with
  | some (some p) => p.periods[period]
  | _ => ⟨(Config.freeAttributes schedule period).1, (Config.freeAttributes schedule period).2⟩

/-! ## Net values (R114) -/

/-- The sealed window part of the channel a term names. -/
def State.sealedWindow (channel : Byte) (s : State) : Triple Quantity :=
  if h : channel.toNat < 16 then s.channels[channel.toNat].sealedWindow
  else (Config.freeSealed channel).1

/-- The sealed catch-up part of the channel a term names. -/
def State.sealedCatchUp (channel : Byte) (s : State) : Triple Quantity :=
  if h : channel.toNat < 16 then s.channels[channel.toNat].sealedCatchUp
  else (Config.freeSealed channel).2

/-- The sealed estimated mark of the channel a term names. -/
def State.sealedEstimated (channel : Byte) (s : State) : Bool :=
  if h : channel.toNat < 16 then s.channels[channel.toNat].sealedEstimated
  else Config.freeEstimated channel

/-- The weight of a sign code. -/
def weight (sign : Byte) : Int :=
  if sign = 1 then 1 else if sign = 2 then -1 else Config.freeSign sign

/-- The exact sum over the feed terms of sign times a sealed component, held within signed 48
bits. -/
def netOf (part : Byte → Quantity) (terms : List FeedPlace) : Int :=
  holdSigned ((terms.map fun t => weight t.sign * ((part t.channel).toNat : Int)).sum)

/-- The three nets of one part. -/
def netTriple (part : Byte → Triple Quantity) (terms : List FeedPlace) : Triple Int :=
  ⟨netOf (fun k => (part k).active) terms, netOf (fun k => (part k).lagging) terms,
    netOf (fun k => (part k).leading) terms⟩

/-- The window net of an account. -/
def State.windowNet (a : Account) (s : State) : Triple Int :=
  netTriple (fun k => s.sealedWindow k) a.contract.terms

/-- The catch-up net of an account. -/
def State.catchUpNet (a : Account) (s : State) : Triple Int :=
  netTriple (fun k => s.sealedCatchUp k) a.contract.terms

/-- The subinterval is estimated for an account. -/
def State.estimatedFor (a : Account) (s : State) : Bool :=
  a.contract.terms.any fun t => s.sealedEstimated t.channel

/-! ## Energy, excess and counts (R115 to R117) -/

/-- R116: net lagging less the allowed lagging energy. -/
def lagExcess (allowance : Nat) (net : Triple Int) : Int :=
  net.lagging - ((net.active.toNat * allowance / 1000 : Nat) : Int)

/-- R115, R116: one part is added to a register set; a net of zero or below adds nothing. -/
def RegisterSet.addPart (allowance : Nat) (penalised : Bool) (net : Triple Int)
    (r : RegisterSet) : RegisterSet :=
  { r with
    active := r.active.add net.active.toNat
    lagging := r.lagging.add net.lagging.toNat
    leading := r.leading.add net.leading.toNat
    excessLagging := r.excessLagging.add (lagExcess allowance net).toNat
    excessLeading := if penalised then r.excessLeading.add net.leading.toNat
      else r.excessLeading }

/-- R117: the subinterval is counted. -/
def RegisterSet.count (estimated : Bool) (r : RegisterSet) : RegisterSet :=
  { r with
    subintervals := countUp r.subintervals
    estimatedCount := if estimated then countUp r.estimatedCount else r.estimatedCount }

/-- R115 to R117: the current period's register set after the fold. -/
def State.foldedSet (a : Account) (s : State) (r : RegisterSet) : RegisterSet :=
  let allowance := a.contract.allowance.toNat
  let penalised := (s.attributes a.contract.schedule a.period).leadingPenalised
  ((r.addPart allowance penalised (s.windowNet a)).addPart allowance penalised
    (s.catchUpNet a)).count (s.estimatedFor a)

/-! ## The window and demand (R118, R125) -/

/-- The entry a regular fold appends. -/
def State.windowEntry (a : Account) (s : State) : WindowEntry :=
  ⟨(s.windowNet a).map (BitVec.ofInt 48), s.estimatedFor a⟩

/-- R118: append an entry, dropping oldest entries so that at most W stay (log 25). -/
def pushWindow (w : Nat) (e : WindowEntry) (l : List WindowEntry) : List WindowEntry :=
  l.drop (l.length + 1 - w) ++ [e]

/-- R125: the sum of one net over the entries, or zero if negative, times 3600, divided by W
times L, held at 2^32−1. -/
def demandOf (part : Triple Quantity → Quantity) (w length : Nat) (l : List WindowEntry) : Word :=
  holdWord (((l.map fun e => (part e.net).toInt).sum).toNat * 3600 / (w * length))

/-- What demand evaluation receives from the fold (R129). -/
structure Demand where
  demand : Word
  reactive : Word
  endTime : CalTime
  estimated : Bool
  timeUnsure : Bool
  deriving DecidableEq, Repr

/-- R118: the demand handed to the evaluation. -/
def State.demandFor (w : Nat) (l : List WindowEntry) (s : State) : Demand :=
  { demand := demandOf Triple.active w s.clock.subinterval l
    reactive := demandOf Triple.lagging w s.clock.subinterval l
    endTime := s.sweep.time
    estimated := l.any WindowEntry.estimated
    timeUnsure := !s.clock.trust }

/-- R130: the peak record after a demand. -/
def newPeak (d : Demand) (held : Option PeakRecord) : Option PeakRecord :=
  let fresh : PeakRecord := ⟨d.demand, d.reactive, d.endTime, d.estimated, d.timeUnsure⟩
  match held with
  | none => some fresh
  | some p => if p.demand.toNat < d.demand.toNat then some fresh else some p

/-- R131: the demand is above a nonzero contract demand. -/
def overContract (contractDemand demand : Word) : Bool :=
  contractDemand != 0 && decide (contractDemand.toNat < demand.toNat)

/-- R133: the place of a new entry, after every entry whose demand is as great or greater. -/
def placeEntry (e : TopEntry) : List TopEntry → List TopEntry
  | [] => [e]
  | x :: xs => if e.demand.toNat ≤ x.demand.toNat then x :: placeEntry e xs else e :: x :: xs

/-- R134: the offer judged against the whole list. The model's choice (log 30) for an N that a
disturbance left out of range: a list of N or more entries is full, so nothing is entered at N = 0
where none is held, and an N above 4 lets the list grow past 4. -/
def offerEntry (n : Nat) (e : TopEntry) (l : List TopEntry) : List TopEntry :=
  if l.length < n then placeEntry e l
  else
    match l.getLast? with
    | none => l
    | some last =>
      if last.demand.toNat < e.demand.toNat then placeEntry e l.dropLast else l

/-- The first entry of a day. -/
def entryOfDay (day : Date) (l : List TopEntry) : Option TopEntry :=
  l.find? fun x => decide (x.day = day)

/-- R134, R135: a demand is offered to the top list. The model's choice (log 30) where several
entries have the demand's day: the first in list order is judged, and removed alone. -/
def offerTop (n : Nat) (onePerDay : Bool) (e : TopEntry) (l : List TopEntry) : List TopEntry :=
  match onePerDay, entryOfDay e.day l with
  | true, some held =>
    if held.demand.toNat < e.demand.toNat then
      placeEntry e (l.eraseP fun x => decide (x.day = e.day))
    else l
  | _, _ => offerEntry n e l

/-- The one-per-day setting of a contract part. -/
def oneADay (c : ContractImage) : Bool := c.onePerDay != 0

/-- The top-list entry a demand makes (R132, R134). -/
def Demand.topEntry (d : Demand) : TopEntry :=
  ⟨d.demand, d.endTime, dayOfDemand d.endTime, d.estimated, d.timeUnsure⟩

/-- The account after a demand is evaluated (R129 to R135). -/
def State.evaluated (d : Demand) (a : Account) (s : State) : Account :=
  { a with
    registers := a.registers.set a.period
      { a.registers[a.period] with peak := newPeak d a.registers[a.period].peak }
    overContract := overContract a.contract.contractDemand d.demand
    topList :=
      if (s.attributes a.contract.schedule a.period).demandChargeable then
        offerTop a.contract.peaksAveraged.toNat (oneADay a.contract) d.topEntry a.topList
      else a.topList }

/-- R131: DEMAND_EXCEEDED is latched as the flag rises. -/
def demandLatches (d : Demand) (a : Account) : List AttnKind :=
  if overContract a.contract.contractDemand d.demand && !a.overContract then [.demandExceeded]
  else []

/-! ## The fold (R114 to R119) -/

/-- R114 to R117: nets, negative-net-seen flag, registers and counts. -/
def State.foldedEnergy (a : Account) (s : State) : Account :=
  { a with
    negativeNet := a.negativeNet || decide ((s.windowNet a).active < 0)
    registers := a.registers.set a.period (s.foldedSet a a.registers[a.period]) }

/-- R114: NEGATIVE_NET is latched as its flag rises. -/
def State.foldLatches (a : Account) (s : State) : List AttnKind :=
  if decide ((s.windowNet a).active < 0) && !a.negativeNet then [.negativeNet] else []

/-- R118: the regular fold's window and the demand a full window gives. -/
def State.foldRegular (a : Account) (s : State) : Account × List AttnKind :=
  let w := a.contract.windowLength.toNat
  let b := { s.foldedEnergy a with window := pushWindow w (s.windowEntry a) a.window }
  if b.window.length = w then
    (s.evaluated (s.demandFor w b.window) b,
      s.foldLatches a ++ demandLatches (s.demandFor w b.window) b)
  else (b, s.foldLatches a)

/-- R114 to R119: stage 3 for an ACTIVE or RETIRING account. -/
def State.fold (a : Account) (s : State) : Account × List AttnKind :=
  match s.sweep.kind with
  | .regular => s.foldRegular a
  | .irregular => ({ s.foldedEnergy a with window := [] }, s.foldLatches a)

/-! ## The figures of a close (R137 to R141) -/

/-- The quotient of a top-list average (log 14 for a divisor of 0 or a quotient that leaves 32
bits). -/
def averageOver (sum divisor : Nat) : Word :=
  if divisor = 0 ∨ 2 ^ 32 ≤ sum / divisor then Config.freeAverage sum divisor
  else BitVec.ofNat 32 (sum / divisor)

/-- R137, and R141 for a FAULTED contract whose N is out of range. -/
def topListAverage (faulted : Bool) (n : Byte) (l : List TopEntry) : Word :=
  if l = [] then 0
  else
    averageOver ((l.map fun e => e.demand.toNat).sum)
      (if faulted && !peaksInRange n.toNat then l.length else n.toNat)

/-- The greater of two demands. -/
def maxWord (a b : Word) : Word := if a.toNat < b.toNat then b else a

/-- R138: billing demand. -/
def billingDemand (average ratchet minimum : Word) : Word :=
  maxWord (maxWord average ratchet) minimum

/-- R139: a close that does not renew the ratchet. With percent 0 the rule leaves a record with no
remaining periods as it is. With a percent of 50 to 100 and a candidate below the value it states no
result from remaining periods 0, and the record stays as it is there too (DESIGN CHOICE, log 34). -/
def ratchetRunsDown (value : Word) (remaining : Nat) : Word × Nat :=
  if remaining = 0 then (value, 0)
  else (if remaining - 1 = 0 then 0 else value, remaining - 1)

/-- R141: the remaining periods of a renewal from a FAULTED contract. -/
def clampPeriods (n : Nat) : Nat := if n = 0 then 1 else if 12 < n then 12 else n

/-- R139, and R141 for a FAULTED contract: the ratchet record after a close. -/
def ratchetAfter (faulted : Bool) (c : ContractImage) (average value : Word) (remaining : Nat) :
    Word × Nat :=
  let percent := c.ratchetPercent.toNat
  let periods := c.ratchetPeriods.toNat
  let candidate := average.toNat * percent / 100
  if percent = 0 ∨ (faulted = true ∧ percentInRange percent = false) then
    ratchetRunsDown value remaining
  else if percentInRange percent = false then
    Config.freeRatchet c.ratchetPercent c.ratchetPeriods average value remaining
  else if candidate < value.toNat then ratchetRunsDown value remaining
  else if faulted then (BitVec.ofNat 32 candidate, clampPeriods periods)
  else if 1 ≤ periods ∧ periods ≤ 12 then (BitVec.ofNat 32 candidate, periods)
  else Config.freeRatchet c.ratchetPercent c.ratchetPeriods average value remaining

/-- R146: some figure of the copied records rests on estimated data. -/
def estimatedAny (registers : Vector RegisterSet 4) (l : List TopEntry) : Bool :=
  registers.toList.any (fun r =>
    r.estimatedCount != 0 ||
    match r.peak with
    | some p => p.estimated
    | none => false) ||
  l.any TopEntry.estimated

/-- R146: the snapshot a close makes. -/
def snapshotOf (faulted final : Bool) (time : CalTime) (a : Account) : Snapshot :=
  let average := topListAverage faulted a.contract.peaksAveraged a.topList
  { periodCount := a.periodCount, closeTime := time, registers := a.registers,
    topList := a.topList, average := average, ratchetApplied := a.ratchetValue,
    billingDemand := billingDemand average a.ratchetValue a.contract.minimumBilling,
    finalClose := final, faulted := faulted,
    estimatedAny := estimatedAny a.registers a.topList }

/-- R145 steps 1 to 5, R160 steps 1 to 4: the record after a close. -/
def closed (faulted final : Bool) (time : CalTime) (a : Account) : Account :=
  let average := topListAverage faulted a.contract.peaksAveraged a.topList
  let ratchet := ratchetAfter faulted a.contract average a.ratchetValue a.ratchetRemaining
  { a with
    snapshot := some (snapshotOf faulted final time a)
    ratchetValue := ratchet.1, ratchetRemaining := ratchet.2
    registers := Vector.replicate 4 RegisterSet.zero, topList := []
    overContract := false, negativeNet := false
    periodCount := a.periodCount + 1, closePending := false }

/-! ## Amendments (R136, R152) -/

/-- R136 step 1: each day keeps only its first entry. -/
def firstOfEachDay (seen : List Date) : List TopEntry → List TopEntry
  | [] => []
  | e :: rest =>
    if e.day ∈ seen then firstOfEachDay seen rest else e :: firstOfEachDay (e.day :: seen) rest

/-- R136: the top list under a new contract. -/
def trimTop (c : ContractImage) (l : List TopEntry) : List TopEntry :=
  (if oneADay c then firstOfEachDay [] l else l).take c.peaksAveraged.toNat

/-- R152 step 3: the feed lists are equal as sets of channel and sign. -/
def sameFeeds (a b : List FeedPlace) : Bool :=
  a.all (fun t => decide (t ∈ b)) && b.all (fun t => decide (t ∈ a))

/-- R152 step 3: whether the window is kept. -/
def keepsWindow (old new : ContractImage) : Bool :=
  decide (old.windowLength = new.windowLength) && sameFeeds old.terms new.terms

/-- R152 steps 2 to 5: the record after a new contract is applied. -/
def applied (new : ContractImage) (a : Account) : Account :=
  { a with
    contract := new, checkCode := checkCodeOf new
    window := if keepsWindow a.contract new then a.window else []
    topList := trimTop new a.topList, amendment := none }

end Sys2Proof.Machine
end

