-- ==== Sys2Proof/Machine/BoundaryStep.lean ====
section
/-!
DEFINITION. The account boundary step in its eight stages (R111 to R124), pull-forward and the
order an account command passes through (R13, R109), giving up a slot (R18), repair (R153) and
the immediate final close (R160).
-/

namespace Sys2Proof.Machine

/-- What a boundary step makes of an account: its record, the kinds latched with its slot, and
the feed terms whose reference counts are released. -/
structure StepOut where
  account : Account
  latched : List AttnKind
  released : List FeedPlace
  deriving DecidableEq, Repr

/-- R120: stage 4. -/
def suspendStage (a : Account) : Account :=
  if a.state = .active ∧ a.suspendPending = true then
    { a with state := .suspended, suspendPending := false }
  else if a.state = .suspended ∧ a.resumePending = true then
    { a with state := .active, window := [], resumePending := false }
  else a

/-- R159: the final close of a RETIRING account. -/
def finalClose (time : CalTime) (a : Account) : StepOut :=
  { account := { closed false true time a with amendment := none, state := .retired }
    latched := [.closeDone]
    released := a.contract.terms ++ a.amendmentTerms }

/-- R122: a COMMITTED amendment that is due. -/
def dueAmendment (closedNow : Bool) (a : Account) : Option ContractImage :=
  match a.amendment with
  | some ⟨.committed .atBoundary, c⟩ => some c
  | some ⟨.committed .atClose, c⟩ => if closedNow then some c else none
  | some ⟨.staged, _⟩ => none
  | none => none

/-- R122, R152: stage 6. -/
def amendStage (closedNow : Bool) (a : Account) : StepOut :=
  match dueAmendment closedNow a with
  | some c => ⟨applied c a, [.amendmentApplied], a.contract.terms⟩
  | none => ⟨a, [], []⟩

/-- R121, R122: stages 5 and 6. -/
def closeAndAmend (time : CalTime) (a : Account) : StepOut :=
  if a.state = .retiring then finalClose time a
  else if a.closePending then
    let out := amendStage true (closed false false time a)
    { out with latched := .closeDone :: out.latched }
  else amendStage false a

/-- R123: stage 7, passed over for an account made RETIRED. -/
def State.nextPeriod (a : Account) (s : State) : Account :=
  if a.state = .retired then a
  else { a with period := s.lookupPeriod a.contract.schedule s.sweep.time }

/-- R124: stage 8. -/
def State.recordBoundary (a : Account) (s : State) : Account :=
  { a with lastBoundary := s.sweep.b }

/-- R114: stage 3, passed over in every state but ACTIVE and RETIRING. -/
def State.foldStage (a : Account) (s : State) : Account × List AttnKind :=
  if a.state = .active ∨ a.state = .retiring then s.fold a else (a, [])

/-- R111: stages 2 to 8 for an account that has passed verification. -/
def State.accountStep (a : Account) (s : State) : StepOut :=
  if a.state = .opening then
    ⟨s.recordBoundary (s.nextPeriod { a with state := .active, window := [] }), [], []⟩
  else
    let folded := s.foldStage a
    let out := closeAndAmend s.sweep.time (suspendStage folded.1)
    ⟨s.recordBoundary (s.nextPeriod out.account), folded.2 ++ out.latched, out.released⟩

/-- R111: the boundary step of a slot; a failed verification stops it (R112). -/
def State.boundaryStep (i : Fin 32) (s : State) : State :=
  if s.verified i then
    let out := s.accountStep s.slots[i]
    ((s.setSlot i out.account).releaseTerms out.released).latchAll out.latched i
  else s.enterFaulted i

/-- R109: the account is one behind while a sweep runs. -/
def State.oneBehind (i : Fin 32) (s : State) : Bool :=
  s.sweep.running && s.slots[i].state.swept && decide (s.slots[i].lastBoundary = s.sweep.b - 1)

/-- R13 stages 2 and 3: pull-forward, or else verification in a swept state. -/
def State.bring (i : Fin 32) (s : State) : State :=
  if s.oneBehind i then s.boundaryStep i
  else if s.slots[i].state.swept && !s.verified i then s.enterFaulted i
  else s

/-- R13: the order every account command passes through; `permitted` says whether R23 permits it
on a FAULTED account. -/
def accountCommand (account : Word) (permitted : Bool)
    (own : Fin 32 → State → State × Response) (s : State) : State × Response :=
  match s.lookup account with
  | none => refuse .noAccount s
  | some i =>
    if (s.bring i).slots[i].state = .faulted ∧ permitted = false then
      refuse .recordFault (s.bring i)
    else own i (s.bring i)

/-- R18: a slot becomes VACANT; the terms still counted are released first. -/
def State.vacate (i : Fin 32) (s : State) : State :=
  ((s.releaseTerms s.slots[i].countedTerms).setSlot i Account.cleared).setDirectory
    (removeEntry i s.directory)

/-- R153: a FAULTED account is repaired by a STAGED contract. -/
def State.repair (i : Fin 32) (new : ContractImage) (s : State) : State :=
  let a := { applied new s.slots[i] with
    window := [], period := s.lookupPeriod new.schedule s.sweep.time,
    lastBoundary := s.sweep.b, state := .active }
  ((s.setSlot i a).recount).latch .amendmentApplied i

/-- R160: the immediate final close of a FAULTED account. -/
def State.closeFaulted (i : Fin 32) (s : State) : State :=
  let a := { closed true true s.clock.time s.slots[i] with amendment := none, state := .retired }
  ((s.setSlot i a).recount).latch .closeDone i

/-! ## The sweep (R105 to R108) -/

/-- R106: the last boundary applied of an account as a sweep with a gap above 1 starts. -/
def adjustedAccount (b : Word) (a : Account) : Account :=
  if a.state.swept then { a with lastBoundary := b - 1 } else a

/-- R106: the adjustment made where the gap is above 1 (log 23 for a gap of 0). -/
def State.adjustGap (gap b : Word) (s : State) : State :=
  if 1 < gap.toNat then
    s.setSlots (Vector.ofFn fun i : Fin 32 => adjustedAccount b s.slots[i])
  else s

/-- R105: the sweep record as a sweep starts. -/
def startedSweep (m : Marker) (held : Word) : Sweep :=
  { running := true, b := m.number, time := m.time,
    kind := if m.number - held = 1 then m.kind else .irregular,
    nextSlot := 0, heldMarker := false }

/-- R93, R105, R106: the channel unit takes the marker, seals, and the sweep starts. -/
def State.startSweep (m : Marker) (s : State) : State :=
  (((s.sealAll.setQueue { s.queue with marker := none }).setClock
    { s.clock with markerWaiting := false }).adjustGap (m.number - s.sweep.b) m.number).setSweep
      (startedSweep m s.sweep.b)

/-- R107: the visit to a slot, before the next slot is raised. -/
def State.visitSlot (i : Fin 32) (s : State) : State :=
  if s.slots[i].state.swept && decide (s.slots[i].lastBoundary ≠ s.sweep.b) then s.boundaryStep i
  else s

/-- R107, R108: the visit to slot 31 finishes the sweep, and a held marker is taken at once
(log 5). -/
def State.finishSweep (s : State) : State :=
  let t := s.setSweep { s.sweep with running := false, nextSlot := 32, heldMarker := false }
  if s.sweep.heldMarker then
    match s.queue.marker with
    | some q => t.startSweep q.marker
    | none => t
  else t

/-- R107: the next slot is raised by one. -/
def State.afterVisit (i : Fin 32) (s : State) : State :=
  if i.val = 31 then s.finishSweep else s.setSweep { s.sweep with nextSlot := i.val + 1 }

end Sys2Proof.Machine
end

