-- ==== Sys2Proof/Machine/ClockOps.lean ====
section
/-!
DEFINITION. The billing clock's acts: the second advance (R27, R28, R31), the pulse-loss fallback
(R29), the advance while main power is off (R42), the half second that passes on an empty queue of
commands (R29, R30, R72, R73, R80; logs 3, 17 and 21), and the acts of the links' timers.
-/

namespace Sys2Proof.Machine

/-! ## Second advances -/

/-- The calendar one second later; the day of week is derived afresh when the date changes (R26,
R27), and the trust flag is cleared at the calendar wrap (R28). -/
def Clock.nextSecond (c : Clock) : Clock :=
  { c with
    time := c.time.next
    dayOfWeek := if c.time.next.date = c.time.date then c.dayOfWeek
      else c.time.next.date.dayOfWeek
    trust := c.trust && decide (c.time ≠ CalTime.last) }

/-- R31: the monotonic second count rises by one. -/
def Clock.countSecond (c : Clock) : Clock := { c with monotonic := c.monotonic + 1 }

/-- R27, R28: what the new second makes: at the calendar wrap an irregular boundary, at a multiple
of L a regular one. -/
def State.boundaryAtSecond (wrapped : Bool) (s : State) : State :=
  if wrapped then (s.latch .clockIrregular 0).makeBoundary s.clock.time .irregular
  else if s.clock.time.timeOfDay % s.clock.subinterval = 0 then
    s.makeBoundary s.clock.time .regular
  else s

/-- R27: a second advance on main power; while the reset pin is held it makes no boundary (R188)
and latches nothing (log 20). -/
def State.advanceSecond (s : State) : State :=
  let t := s.setClock s.clock.nextSecond.countSecond
  if s.awake then t.boundaryAtSecond (decide (s.clock.time = CalTime.last)) else t

/-- R29: the fallback to INTERNAL, with three second advances. -/
def State.fallBack (s : State) : State :=
  let t := s.setClock { s.clock with source := .internal, gapHalves := 0, phaseHalves := 0 }
  let u := t.advanceSecond.advanceSecond.advanceSecond
  if s.awake then u.latch .clockIrregular 0 else u

/-- R42: a second advance while main power is off and retention is kept; the monotonic count, which
starts at 0 at power-on (R31), stands (DESIGN CHOICE, log 8). -/
def State.advanceOutage (s : State) : State :=
  s.setClock { s.clock.nextSecond with phaseHalves := 0 }

/-- The part is off and the clock runs on the backup supply. -/
def State.onBackup (s : State) : Bool := !s.device.mainPower && s.device.retentionValid

/-! ## The links' timers -/

/-- R72: the refresh point of a link's running hold timer. -/
def State.refreshLink (n : Fin 4) (s : State) : State :=
  s.changeLink n
    (Link.refresh s.holdTime s.queue.congested
      { s.links[n] with holdTimer := some s.links[n].lastHold })

/-- R73: a link's hold expires. -/
def State.expireLink (n : Fin 4) (s : State) : State := s.changeLink n s.links[n].expire

/-! ## Half a second of the internal oscillator (logs 3 and 21) -/

/-- The clock's half second. -/
def State.tickClock (s : State) : State :=
  match s.clock.source with
  | .internal =>
    if s.clock.phaseHalves = 0 then s.setClock { s.clock with phaseHalves := 1 }
    else (s.setClock { s.clock with phaseHalves := 0 }).advanceSecond
  | .pulse =>
    if s.clock.gapHalves < 5 then s.setClock { s.clock with gapHalves := s.clock.gapHalves + 1 }
    else s.fallBack

/-- A hold timer's half second: at half the hold time the refresh point, at all of it the
expiry. -/
def State.tickHold (n : Fin 4) (s : State) : State :=
  match s.links[n].holdTimer with
  | none => s
  | some halves =>
    if halves + 1 = s.links[n].lastHold then s.refreshLink n
    else if 2 * s.links[n].lastHold ≤ halves + 1 then s.expireLink n
    else s.changeLink n { s.links[n] with holdTimer := some (halves + 1) }

/-- A presence timer's half second. -/
def State.tickPresence (k : Fin 16) (s : State) : State :=
  if s.channels[k].timerMode = .running then
    if s.channels[k].timerHalves ≤ 1 then s.expirePresence k
    else s.setChannel k { s.channels[k] with timerHalves := s.channels[k].timerHalves - 1 }
  else s

/-- Half a second passes. The presence timers count before the hold timers, so that a hold that
expires in it reloads them in full (R74, log 21).

While main power is off the clock's seconds follow on the phase that stands (R42, R183). R30 and R42
do not say when the first of them falls: with the source INTERNAL the second under way when power fails
is counted on, and with PULSE, whose phase is 0, the first falls a whole second after the failure and
the time since the last edge is dropped (DESIGN CHOICE, log 33). -/
def State.tick (s : State) : State :=
  if s.device.mainPower then
    if s.device.resetHeld then s.tickClock
    else
      linkNumbers.foldl (fun t n => t.tickHold n)
        (channelNumbers.foldl (fun t k => t.tickPresence k) s.tickClock)
  else if s.device.retentionValid then
    if s.clock.phaseHalves = 0 then s.setClock { s.clock with phaseHalves := 1 }
    else s.advanceOutage
  else s

end Sys2Proof.Machine
end

