-- ==== Sys2Proof/Machine/PowerOps.lean ====
section
/-!
DEFINITION. The rebuilding of the working state and the start-up sequence (R184 to R188).
-/

namespace Sys2Proof.Machine

/-- The clock's fields that are not retained, at a start (R26, R42). -/
def Clock.afterStart (c : Clock) : Clock :=
  { c with markerWaiting := false, monotonic := 0, gapHalves := 0, phaseHalves := 0 }

/-- The attention unit at power-on and at the reset pin (R171). -/
def Attention.afterStart : Attention := { pendingSet := [], mask := 0xFFFF }

/-- R178, R183, R188: the working state is lost with main power or at the reset pin (log 8). The
clock's monotonic count, gap and phase stay as they stand here, since the clock goes on advancing (R42,
R188; logs 8 and 33). -/
def State.dropWorking (s : State) : State :=
  (((((s.setPort { state := .idle, shiftedOut := [] }).setQueue IntakeQueue.empty).setLinks
    (Vector.replicate 4 (Link.afterReset s.holdTime))).setAttention
      Attention.afterStart).setClock { s.clock with markerWaiting := false }).setSweep
        { s.sweep with heldMarker := false }

/-- R184 steps 1 and 4, R178: the working state is rebuilt at a start. -/
def State.clearWorking (s : State) : State := s.dropWorking.setClock s.clock.afterStart

/-- R185: whether the outage boundary is called for. -/
def State.outageCalls (s : State) : Bool :=
  !sameSubinterval s.clock.subinterval s.clock.lastBoundary s.clock.time ||
  decide (s.clock.boundaryNumber ≠ s.sweep.b)

/-- R185: the outage boundary, if called for. -/
def State.outageBoundary (s : State) : State :=
  if s.outageCalls then (s.latch .clockIrregular 0).makeBoundary s.clock.time .irregular else s

/-- R184 step 2, R188: the identity after a start. -/
def Device.started (cause : ResetCause) (d : Device) : Device :=
  { d with mainPower := true, resetHeld := false, resetCause := cause, retentionLost := false }

/-- R184, R188: the start-up sequence over retained state. -/
def State.startUp (cause : ResetCause) (s : State) : State :=
  ((s.clearWorking.setDevice (s.device.started cause)).resetChannels
    channelAfterRestart).outageBoundary

/-- R187: start-up with retention lost; the commands that wait stay in the queue. -/
def State.startLost (s : State) : State := State.reset.setPending s.pending

end Sys2Proof.Machine
end

