-- ==== Sys2Proof/Machine/Accounts.lean ====
section
/-!
DEFINITION. Family: account table, opening, listing and reading (R14 to R20, R126, R142).
-/

namespace Sys2Proof.Machine

/-- R14: the lowest VACANT slot. -/
def State.lowestVacant (s : State) : Option (Fin 32) :=
  slotNumbers.find? fun i => decide (s.slots[i].state = .vacant)

/-- R16: the record of a new account in its opening form. -/
def openingRecord (image : ContractImage) (b : Word) : Account :=
  { Account.cleared with
    state := .opening, contract := image.stored, checkCode := checkCodeOf image.stored,
    lastBoundary := b }

/-- R16: OPEN ACCOUNT is taken for a slot. -/
def State.openIn (i : Fin 32) (image : ContractImage) (s : State) : State :=
  ((s.setSlot i (openingRecord image s.sweep.b)).addTerms image.terms).setDirectory
    (insertEntry ⟨image.account, i⟩ s.directory)

/-- OPEN ACCOUNT (R15, R16). -/
def actOpenAccount (image : ContractImage) (s : State) : State × Response :=
  match s.contractCheck image with
  | some status => refuse status s
  | none =>
    if (s.lookup image.account).isSome then refuse .duplicate s
    else
      match s.lowestVacant with
      | none => refuse .tableFull s
      | some i => okWith [u8 i.val] (s.openIn i image)

def execOpenAccount (image : ContractImage) (s : State) : Host.Outcome State Fault Refusal :=
  .next (s.request (.openAccount image) (actOpenAccount image))

/-- One returned entry of LIST ACCOUNTS (R19). -/
def State.entryBytes (s : State) (e : DirectoryEntry) : List Byte :=
  wordBytes e.account ++ [u8 e.slot.val, s.slots[e.slot].state.code]

/-- The directory entries from a starting account number on. -/
def State.entriesFrom (start : Word) (s : State) : List DirectoryEntry :=
  s.directory.filter fun e => decide (start.toNat ≤ e.account.toNat)

/-- LIST ACCOUNTS (R19): at most 8 entries, then the more-follows flag. -/
def actListAccounts (start : Word) (s : State) : State × Response :=
  okWith
    (listBytes s.entryBytes ((s.entriesFrom start).take 8) ++
      [flagByte (decide (8 < (s.entriesFrom start).length))]) s

def execListAccounts (start : Word) (s : State) : Host.Outcome State Fault Refusal :=
  .next (s.request (.listAccounts start) (actListAccounts start))

/-- The items READ ACCOUNT returns (R20). Where R182 gives an item no layout in a response, it is the
model's choice (DESIGN CHOICE, log 12): the contract part as its 33-byte image with all six feed term
places, then the stored check code, and the number of window entries in one byte. -/
def accountBytes (i : Fin 32) (a : Account) : List Byte :=
  [u8 i.val, a.state.code] ++ contractBytes a.contract ++ halfBytes a.checkCode ++
  optionalBytes 2
    (if a.state = .faulted then some (halfBytes (checkCodeOf a.contract)) else none) ++
  [flagByte a.closePending, flagByte a.suspendPending, flagByte a.resumePending] ++
  optionalBytes 36 (a.amendment.map amendmentBytes) ++
  halfBytes a.periodCount ++ wordBytes a.lastBoundary ++ [u8 a.period.val] ++
  [u8 a.window.length, flagByte a.overContract, flagByte a.negativeNet,
   flagByte a.snapshot.isSome]

/-- READ ACCOUNT's own rule (R20). -/
def ownReadAccount (i : Fin 32) (s : State) : State × Response :=
  okWith (accountBytes i s.slots[i]) s

/-- READ ACCOUNT (R13, R20). -/
def actReadAccount (account : Word) (s : State) : State × Response :=
  accountCommand account true ownReadAccount s

def execReadAccount (account : Word) (s : State) : Host.Outcome State Fault Refusal :=
  .next (s.request (.readAccount account) (actReadAccount account))

/-- The items READ REGISTERS returns for a period (R126). -/
def registersBytes (p : Fin 4) (a : Account) : List Byte :=
  u8 a.period.val :: registerSetBytes a.registers[p] ++ listBytes windowEntryBytes a.window

/-- READ REGISTERS' own rule (R126). -/
def ownReadRegisters (period : Byte) (i : Fin 32) (s : State) : State × Response :=
  if h : period.toNat < 4 then okWith (registersBytes ⟨period.toNat, h⟩ s.slots[i]) s
  else refuse .badOperand s

/-- READ REGISTERS (R13, R126). -/
def actReadRegisters (account : Word) (period : Byte) (s : State) : State × Response :=
  accountCommand account true (ownReadRegisters period) s

def execReadRegisters (account : Word) (period : Byte) (s : State) :
    Host.Outcome State Fault Refusal :=
  .next (s.request (.readRegisters account period) (actReadRegisters account period))

/-- R142: the provisional top-list average. -/
def provisionalAverage (a : Account) : Word :=
  topListAverage false a.contract.peaksAveraged a.topList

/-- R142: the provisional billing demand. -/
def provisionalBilling (a : Account) : Word :=
  billingDemand (provisionalAverage a) a.ratchetValue a.contract.minimumBilling

/-- A provisional figure, absent for a FAULTED account (R142). -/
def provisionalBytes (a : Account) (w : Word) : List Byte :=
  optionalBytes 4 (if a.state = .faulted then none else some (wordBytes w))

/-- The items READ PEAKS returns (R142). -/
def peaksBytes (a : Account) : List Byte :=
  [a.state.code, u8 a.period.val, a.contract.peaksAveraged, flagByte (oneADay a.contract)] ++
  listBytes topEntryBytes a.topList ++
  a.registers.toList.flatMap (fun r => optionalPeakBytes r.peak) ++
  [flagByte a.overContract] ++ wordBytes a.ratchetValue ++ [u8 a.ratchetRemaining] ++
  provisionalBytes a (provisionalAverage a) ++ provisionalBytes a (provisionalBilling a)

/-- READ PEAKS' own rule (R142). -/
def ownReadPeaks (i : Fin 32) (s : State) : State × Response := okWith (peaksBytes s.slots[i]) s

/-- READ PEAKS (R13, R142). -/
def actReadPeaks (account : Word) (s : State) : State × Response :=
  accountCommand account true ownReadPeaks s

def execReadPeaks (account : Word) (s : State) : Host.Outcome State Fault Refusal :=
  .next (s.request (.readPeaks account) (actReadPeaks account))

end Sys2Proof.Machine
end

