-- ==== Sys2Proof/Machine/Attention.lean ====
section
/-!
DEFINITION. Family: attention unit (R165 to R170).
-/

namespace Sys2Proof.Machine

/-- The pending set replaced. -/
def State.setPairs (l : List AttnPair) (s : State) : State :=
  s.setAttention { s.attention with pendingSet := l }

/-- R1, R166: the account number a slot holds, or 0 if it is VACANT. -/
def State.slotAccount (i : Fin 32) (s : State) : Word :=
  if s.slots[i].state = .vacant then 0 else s.slots[i].contract.account

/-- R166: the account number reported with a pair; 0 for a source that is no slot. -/
def State.pairAccount (p : AttnPair) (s : State) : Word :=
  if h : p.source < 32 then if p.kind.ofSlot then s.slotAccount ⟨p.source, h⟩ else 0 else 0

/-- The enabled pairs pending. -/
def State.enabledCount (s : State) : Nat := s.attention.enabledPairs.length

/-- The pairs pending. -/
def State.pendingCount (s : State) : Nat := s.attention.pendingSet.length

/-- R165: the first enabled pair in the taking order. -/
def State.firstEnabled (s : State) : Option AttnPair :=
  s.attention.pendingSet.find? fun p => enabled s.attention.mask p.kind

/-- TAKE ATTENTION (R166). The none flag stands first in both responses, clear before a pair
(the model's layout, log 12). -/
def actTakeAttention (s : State) : State × Response :=
  match s.firstEnabled with
  | some p =>
    let t := s.setPairs (s.attention.pendingSet.filter fun q => decide (q ≠ p))
    okWith
      ([flagByte false, u8 p.kind.rank, u8 p.source] ++ wordBytes (s.pairAccount p) ++
        [u8 t.enabledCount, u8 t.pendingCount]) t
  | none =>
    okWith
      ([flagByte true, 0, 0] ++ wordBytes 0 ++ [u8 s.enabledCount, u8 s.pendingCount]) s

def execTakeAttention (s : State) : Host.Outcome State Fault Refusal :=
  .next (s.request .takeAttention actTakeAttention)

/-- R168: DISMISS names this pair. -/
def dismisses (kinds : Half) (source : Option Byte) (p : AttnPair) : Bool :=
  enabled kinds p.kind &&
  match source with
  | none => true
  | some b => p.source == b.toNat

/-- R168: the source number is above 31. -/
def sourceTooHigh (source : Option Byte) : Bool :=
  match source with
  | some b => decide (31 < b.toNat)
  | none => false

/-- DISMISS (R168). -/
def actDismiss (kinds : Half) (source : Option Byte) (s : State) : State × Response :=
  if sourceTooHigh source then refuse .badOperand s
  else
    let t := s.setPairs (s.attention.pendingSet.filter fun p => !dismisses kinds source p)
    okWith [u8 (s.pendingCount - t.pendingCount), u8 t.pendingCount] t

def execDismiss (kinds : Half) (source : Option Byte) (s : State) :
    Host.Outcome State Fault Refusal :=
  .next (s.request (.dismiss kinds source) (actDismiss kinds source))

/-- SET ATTENTION MASK (R169). -/
def actSetAttentionMask (mask : Half) (s : State) : State × Response :=
  let t := s.setAttention { s.attention with mask := mask }
  okWith (halfBytes s.attention.mask ++ [u8 t.enabledCount]) t

def execSetAttentionMask (mask : Half) (s : State) : Host.Outcome State Fault Refusal :=
  .next (s.request (.setAttentionMask mask) (actSetAttentionMask mask))

/-- The pending pairs of a kind, in ascending source number. -/
def State.pairsOf (k : AttnKind) (s : State) : List AttnPair :=
  s.attention.pendingSet.filter fun p => decide (p.kind = k)

/-- A pair's source number, with the account number where the source is a slot (R170). -/
def State.sourceBytes (k : AttnKind) (s : State) (p : AttnPair) : List Byte :=
  u8 p.source :: (if k.ofSlot then wordBytes (s.pairAccount p) else [])

/-- READ ATTENTION (R170). The counts by kind stand in ascending kind code (the model's order,
log 12). -/
def actReadAttention (kind : Byte) (s : State) : State × Response :=
  match kindOfRank kind.toNat with
  | none => refuse .badOperand s
  | some k =>
    okWith
      (halfBytes s.attention.mask ++ (allKinds.map fun j => u8 (s.pairsOf j).length) ++
        [u8 s.pendingCount] ++ listBytes (s.sourceBytes k) (s.pairsOf k) ++ [flagByte s.attn]) s

def execReadAttention (kind : Byte) (s : State) : Host.Outcome State Fault Refusal :=
  .next (s.request (.readAttention kind) (actReadAttention kind))

end Sys2Proof.Machine
end

