-- ==== Sys2Proof/Machine/Channels.lean ====
section
/-!
DEFINITION. Family: intake channels (R65, R80, R98 to R102).
-/

namespace Sys2Proof.Machine

/-- PRESENCE_TIMER_EXPIRY (R80, log 4). -/
def execPresenceTimerExpiry (channel : Fin 16) (s : State) : Host.Outcome State Fault Refusal :=
  .next
    (if s.awake ∧ s.channels[channel].timerMode = .running then s.expirePresence channel else s)

/-- R65, R81: the head frame entry is removed and judged. -/
def State.takeEntry (e : FrameEntry) (rest : List FrameEntry) (s : State) : State :=
  (s.removeHead rest).takeFrame e

/-- TAKE_FRAME_ENTRY (R65): a frame entry stands at the head, with no marker ahead of it. -/
def execTakeFrameEntry (s : State) : Host.Outcome State Fault Refusal :=
  .next
    (if s.awake && !s.markerAtHead then
      match s.queue.entries with
      | e :: rest => s.takeEntry e rest
      | [] => s
    else s)

/-! ## Commands on channels -/

/-- The channel an operand names; none above 15. -/
def channelOf (b : Byte) : Option (Fin 16) := if h : b.toNat < 16 then some ⟨b.toNat, h⟩ else none

/-- R98: the record of a new registration. "The reference count is zero" is read as what the registration
leaves, also over the free count of log 28 (DEDUCED, log 28). -/
def newRegistration (identity : Quantity) (rated : Word) (c : Channel) : Channel :=
  { c with
    state := .awaiting, identity := some identity, ratedPower := some rated,
    policy := .holdLast, timeout := Config.defaultTimeout,
    lastTotals := none, lastSequence := none, lastSecond := none, implausibleRun := 0,
    openWindow := Triple.same 0, openCatchUp := Triple.same 0, openEstimated := false,
    reference := Triple.same 0, credit := Triple.same 0,
    silenceSpannedSeal := false, wasSilent := true, referenceCount := 0 }

/-- R99: the record of a meter replacement. -/
def replacement (identity : Quantity) (rated : Word) (c : Channel) : Channel :=
  { c with
    state := .awaiting, identity := some identity, ratedPower := some rated,
    lastTotals := none, lastSequence := none, lastSecond := none, implausibleRun := 0,
    credit := Triple.same 0, silenceSpannedSeal := false, wasSilent := true,
    openEstimated := true }

/-- R98, R99: the record after REGISTER METER, its presence timer reloaded. -/
def registered (flowing : Bool) (identity : Quantity) (rated : Word) (c : Channel) : Channel :=
  reloadTimer flowing
    (if c.state = .unregistered then newRegistration identity rated c
    else replacement identity rated c)

/-- REGISTER METER (R98, R99). -/
def actRegisterMeter (channel : Byte) (identity : Quantity) (rated : Word) (s : State) :
    State × Response :=
  match channelOf channel with
  | none => refuse .badOperand s
  | some k =>
    if identity = 0 ∨ rated = 0 then refuse .badOperand s
    else
      okWith [s.channels[k].state.code]
        (s.setChannel k (registered (s.flowing (linkOf k)) identity rated s.channels[k]))

def execRegisterMeter (channel : Byte) (identity : Quantity) (ratedPower : Word) (s : State) :
    Host.Outcome State Fault Refusal :=
  .next
    (s.request (.registerMeter channel identity ratedPower)
      (actRegisterMeter channel identity ratedPower))

/-- R100: the record of a released channel. -/
def released (c : Channel) : Channel :=
  { c with
    state := .unregistered, identity := none, ratedPower := none,
    lastTotals := none, lastSequence := none, lastSecond := none, implausibleRun := 0,
    openWindow := Triple.same 0, openCatchUp := Triple.same 0, openEstimated := false,
    reference := Triple.same 0, credit := Triple.same 0,
    silenceSpannedSeal := false, wasSilent := false,
    policy := .holdLast, timeout := Config.defaultTimeout,
    timerMode := .stopped, timerHalves := 0 }

/-- RELEASE METER (R100). -/
def actReleaseMeter (channel : Byte) (s : State) : State × Response :=
  match channelOf channel with
  | none => refuse .badOperand s
  | some k =>
    if s.channels[k].referenceCount ≠ 0 then refuse .inUse s
    else if s.channels[k].state = .unregistered then okWith [] s
    else okWith [] (s.setChannel k (released s.channels[k]))

def execReleaseMeter (channel : Byte) (s : State) : Host.Outcome State Fault Refusal :=
  .next (s.request (.releaseMeter channel) (actReleaseMeter channel))

/-- R101: the record after SET CHANNEL POLICY, its presence timer reloaded. -/
def withPolicy (flowing : Bool) (policy : Policy) (timeout : Nat) (rated : Word) (c : Channel) :
    Channel :=
  reloadTimer flowing
    { c with
      policy := policy, timeout := timeout, ratedPower := some rated,
      credit := if c.policy = .holdLast ∧ policy = .defer then Triple.same 0 else c.credit }

/-- SET CHANNEL POLICY (R101). -/
def actSetChannelPolicy (channel policy timeout : Byte) (rated : Word) (s : State) :
    State × Response :=
  match channelOf channel, policyOf policy with
  | some k, some p =>
    if timeout.toNat < 2 ∨ 60 < timeout.toNat ∨ rated = 0 then refuse .badOperand s
    else
      okWith []
        (s.setChannel k (withPolicy (s.flowing (linkOf k)) p timeout.toNat rated s.channels[k]))
  | _, _ => refuse .badOperand s

def execSetChannelPolicy (channel policy timeout : Byte) (ratedPower : Word) (s : State) :
    Host.Outcome State Fault Refusal :=
  .next
    (s.request (.setChannelPolicy channel policy timeout ratedPower)
      (actSetChannelPolicy channel policy timeout ratedPower))

/-- The remaining time of a presence timer in whole seconds: it counts down by one each second
(R80, log 17). -/
def remainingSeconds (c : Channel) : Nat := (c.timerHalves + 1) / 2

/-- The totals of the last accepted frame. -/
def totalsBytes (t : Triple Word) : List Byte :=
  wordBytes t.active ++ wordBytes t.lagging ++ wordBytes t.leading

/-- The items READ CHANNEL returns (R102). -/
def channelBytes (second : Word) (c : Channel) : List Byte :=
  [c.state.code] ++ optionalBytes 6 (c.identity.map quantityBytes) ++
  [c.policy.code, u8 c.timeout] ++ optionalBytes 4 (c.ratedPower.map wordBytes) ++
  [c.timerMode.code, u8 (remainingSeconds c)] ++
  optionalBytes 12 (c.lastTotals.map totalsBytes) ++
  optionalBytes 1 (c.lastSequence.map fun q => [q]) ++
  optionalBytes 4 ((elapsedSeconds second c).map wordBytes) ++ [u8 c.implausibleRun] ++
  tripleBytes c.openWindow ++ tripleBytes c.openCatchUp ++ [flagByte c.openEstimated] ++
  tripleBytes c.sealedWindow ++ tripleBytes c.sealedCatchUp ++ [flagByte c.sealedEstimated] ++
  tripleBytes c.reference ++ tripleBytes c.credit ++
  [flagByte c.silenceSpannedSeal, flagByte c.wasSilent, u8 c.referenceCount]

/-- READ CHANNEL (R102). -/
def actReadChannel (channel : Byte) (s : State) : State × Response :=
  match channelOf channel with
  | none => refuse .badOperand s
  | some k => okWith (channelBytes s.clock.monotonic s.channels[k]) s

def execReadChannel (channel : Byte) (s : State) : Host.Outcome State Fault Refusal :=
  .next (s.request (.readChannel channel) (actReadChannel channel))

end Sys2Proof.Machine
end

