-- ==== Sys2Proof/Machine/Clock.lean ====
section
/-!
DEFINITION. Family: billing clock (R27 to R30, R37 to R40, R42).
-/

namespace Sys2Proof.Machine

/-- R38 steps 1 to 3: the clock as it is set. -/
def Clock.setTo (t : CalTime) (source : SecondSource) (c : Clock) : Clock :=
  { c with
    time := t, dayOfWeek := t.date.dayOfWeek, trust := true, source := source,
    gapHalves := 0, phaseHalves := 0 }

/-- R38: SET CLOCK is taken. -/
def State.takeClock (t : CalTime) (source : SecondSource) (s : State) : State × Response :=
  let u := s.setClock (s.clock.setTo t source)
  if sameSubinterval s.clock.subinterval s.clock.time t then
    okWith (wordBytes u.clock.boundaryNumber ++ [flagByte true, flagByte false]) u
  else
    let v := (u.latch .clockIrregular 0).makeBoundary t .irregular
    okWith (wordBytes v.clock.boundaryNumber ++ [flagByte true, flagByte true]) v

/-- SET CLOCK (R37, R38). -/
def actSetClock (time : TimeImage) (source : Byte) (s : State) : State × Response :=
  if (calTimeOf time).valid then
    match sourceOf source with
    | some src => s.takeClock (calTimeOf time) src
    | none => refuse .badOperand s
  else refuse .badOperand s

def execSetClock (time : TimeImage) (source : Byte) (s : State) :
    Host.Outcome State Fault Refusal :=
  .next (s.request (.setClock time source) (actSetClock time source))

/-- READ CLOCK (R39). -/
def actReadClock (s : State) : State × Response :=
  okWith
    (calTimeBytes s.clock.time ++
      [s.clock.dayOfWeek.code, s.clock.source.code, flagByte s.clock.trust] ++
      halfBytes (BitVec.ofNat 16 s.clock.subinterval) ++ wordBytes s.clock.boundaryNumber ++
      calTimeBytes s.clock.lastBoundary ++ [flagByte s.clock.markerWaiting]) s

def execReadClock (s : State) : Host.Outcome State Fault Refusal :=
  .next (s.request .readClock actReadClock)

/-- R40 step 2: an account in this state blocks SET SUBINTERVAL. -/
def State.accountsOpen (s : State) : Bool :=
  slotNumbers.any fun i => s.slots[i].state.counted

/-- Every switch point of a day program is a multiple of a length. -/
def programFits (length : Nat) (points : List SwitchPoint) : Bool :=
  points.all fun p => 60 * p.minute % length == 0

/-- Every switch point of a schedule is a multiple of a length. -/
def scheduleFits (length : Nat) (p : Schedule) : Bool :=
  programFits length p.weekday && programFits length p.saturday &&
  programFits length p.sunday && programFits length p.holiday

/-- R40 step 3 holds. -/
def State.schedulesFit (length : Nat) (s : State) : Bool :=
  s.tariff.schedules.toList.all fun slot =>
    match slot with
    | some p => scheduleFits length p
    | none => true

/-- SET SUBINTERVAL (R40). -/
def actSetSubinterval (length : Half) (s : State) : State × Response :=
  if length.toNat ∉ Config.subintervalLengths then refuse .badOperand s
  else if s.accountsOpen then refuse .inUse s
  else if ¬s.schedulesFit length.toNat then refuse .badSchedule s
  else okWith [] (s.setClock { s.clock with subinterval := length.toNat })

def execSetSubinterval (length : Half) (s : State) : Host.Outcome State Fault Refusal :=
  .next (s.request (.setSubinterval length) (actSetSubinterval length))

/-- SECOND_PULSE_EDGE (R29): one second advance while the source is PULSE; ignored while it is
INTERNAL. -/
def execSecondPulseEdge (s : State) : Host.Outcome State Fault Refusal :=
  .next
    (if s.device.mainPower ∧ s.clock.source = .pulse then
      (s.setClock { s.clock with gapHalves := 0 }).advanceSecond
    else s)

/-- INTERNAL_SECOND (R30): one second advance while the source is INTERNAL. -/
def execInternalSecond (s : State) : Host.Outcome State Fault Refusal :=
  .next
    (if s.device.mainPower ∧ s.clock.source = .internal then
      (s.setClock { s.clock with phaseHalves := 0 }).advanceSecond
    else s)

/-- PULSE_LOSS_FALLBACK (R29): the pulse gap reaches 3 s with no edge (log 4). -/
def execPulseLossFallback (s : State) : Host.Outcome State Fault Refusal :=
  .next (if s.device.mainPower ∧ s.clock.source = .pulse then s.fallBack else s)

/-- OUTAGE_SECOND_ADVANCE (R42): the clock advances on the backup supply, and makes no boundary. -/
def execOutageSecondAdvance (s : State) : Host.Outcome State Fault Refusal :=
  .next (if s.onBackup then s.advanceOutage else s)

end Sys2Proof.Machine
end

