-- ==== Sys2Proof/Machine/Links.lean ====
section
/-!
DEFINITION. Family: metering links (R59 to R62, R70 to R76).
-/

namespace Sys2Proof.Machine

/-! ## Reception -/

/-- R60: the error mark is set, the frame discarded and LINK_ERROR latched. -/
def State.discardFrame (n : Fin 4) (s : State) : State :=
  (s.changeLink n { s.links[n] with errorMark := true }).latch .linkError n

/-- R60, R62: a good frame leaves BROKEN and is offered to the queue. -/
def State.goodFrame (n : Fin 4) (e : FrameEntry) (s : State) : State :=
  (s.changeLink n { s.links[n] with breakState := .normal }).offerFrame e

/-- R59, R60: the frame collected on a link ends and is checked. -/
def State.endFrame (n : Fin 4) (collected : List Byte) (charError : Bool) (s : State) : State :=
  let t := s.changeLink n
    { s.links[n] with receive := .waiting, collected := [], charError := false }
  match checkFrame n collected charError with
  | some e => t.goodFrame n e
  | none => t.discardFrame n

/-- R59: a character is added to the frame in progress. -/
def State.addCharacter (n : Fin 4) (char : Byte) (goodStop : Bool) (s : State) : State :=
  let collected := s.links[n].collected ++ [char]
  let charError := s.links[n].charError || !goodStop
  if collected.length = Config.frameLength then s.endFrame n collected charError
  else s.changeLink n { s.links[n] with collected := collected, charError := charError }

/-- R59: a character reaches a receiver. -/
def State.receiveCharacter (n : Fin 4) (char : Byte) (goodStop : Bool) (s : State) : State :=
  match s.links[n].receive with
  | .waiting =>
    if goodStop then
      s.changeLink n
        { s.links[n] with receive := .collecting, collected := [char], charError := false }
    else s
  | .collecting => s.addCharacter n char goodStop
  | .spacing => s

/-- CHARACTER_RECEIVED (R59). -/
def execCharacterReceived (link : Fin 4) (char : Byte) (goodStop : Bool) (s : State) :
    Host.Outcome State Fault Refusal :=
  .next (if s.awake then s.receiveCharacter link char goodStop else s)

/-- R59: characters reach a receiver one after another. -/
def State.receiveCharacters (n : Fin 4) (chars : List LineChar) (s : State) : State :=
  chars.foldl (fun t c => t.receiveCharacter n c.char c.goodStop) s

/-- FRAME_RECEIVED (R59, R60 to R62, R64, log 6): the frame ends with its 25th character. -/
def execFrameReceived (link : Fin 4) (first : LineChar) (rest : List LineChar) (s : State) :
    Host.Outcome State Fault Refusal :=
  .next (if s.awake then s.receiveCharacters link (first :: rest) else s)

/-- IDLE_GAP (R59, R60): a frame in progress ends with fewer than 25 characters. -/
def execIdleGap (link : Fin 4) (s : State) : Host.Outcome State Fault Refusal :=
  .next
    (if s.awake ∧ s.links[link].receive = .collecting then
      s.endFrame link s.links[link].collected s.links[link].charError
    else s)

/-- R61: a break event. -/
def State.takeBreak (n : Fin 4) (s : State) : State :=
  ((s.changeLink n
    { s.links[n] with
      receive := .spacing, collected := [], charError := false,
      breakState := .broken }).silenceLink n).latch .linkBreak n

/-- BREAK (R61): one continuous spell of spacing is one break event. A reset or ENGINE CLEAR makes the
receiver WAITING while the line may still be spacing (R77), and the spec does not say whether the spell
can then be taken as a break again: the model takes a BREAK given then, since the receive state SPACING
alone bars it (DESIGN CHOICE, log 35). -/
def execLineBreak (link : Fin 4) (s : State) : Host.Outcome State Fault Refusal :=
  .next (if s.awake ∧ s.links[link].receive ≠ .spacing then s.takeBreak link else s)

/-- LINE_RETURNS_TO_MARKING (R59). -/
def execLineReturnsToMarking (link : Fin 4) (s : State) : Host.Outcome State Fault Refusal :=
  .next
    (if s.awake ∧ s.links[link].receive = .spacing then
      s.changeLink link { s.links[link] with receive := .waiting }
    else s)

/-! ## Transmitters and hold timers -/

/-- TRANSMISSION_COMPLETE (R71). -/
def execTransmissionComplete (link : Fin 4) (s : State) : Host.Outcome State Fault Refusal :=
  .next
    (if s.awake then s.changeLink link (Link.complete s.holdTime s.links[link]) else s)

/-- A hold timer runs and has not reached its refresh point. -/
def Link.beforeRefresh (l : Link) : Bool :=
  match l.holdTimer with
  | some halves => decide (halves < l.lastHold)
  | none => false

/-- REFRESH_POINT (R72, log 4). -/
def execRefreshPoint (link : Fin 4) (s : State) : Host.Outcome State Fault Refusal :=
  .next (if s.awake && s.links[link].beforeRefresh then s.refreshLink link else s)

/-- HOLD_EXPIRY (R73, log 4). -/
def execHoldExpiry (link : Fin 4) (s : State) : Host.Outcome State Fault Refusal :=
  .next (if s.awake && s.links[link].holdTimer.isSome then s.expireLink link else s)

/-! ## Commands -/

/-- SET HOLD TIME (R75). -/
def actSetHoldTime (seconds : Byte) (s : State) : State × Response :=
  if 2 ≤ seconds.toNat ∧ seconds.toNat ≤ 30 then okWith [] (s.setHoldTime seconds.toNat)
  else refuse .badOperand s

def execSetHoldTime (seconds : Byte) (s : State) : Host.Outcome State Fault Refusal :=
  .next (s.request (.setHoldTime seconds) (actSetHoldTime seconds))

/-- The items READ LINKS returns for one link (R76). -/
def linkBytes (l : Link) : List Byte :=
  [l.breakState.code, l.flow.code, controlCode l.waitingControl, flagByte l.waitingTime.isSome,
   l.transmitter.code, u8 l.lastHold, flagByte l.errorMark, flagByte l.overrunMark]

/-- The items READ LINKS returns for the intake queue (R76). -/
def queueBytes (q : IntakeQueue) : List Byte :=
  [u8 q.entries.length, flagByte q.congested] ++
  optionalBytes 6
    (q.marker.map fun m => u8 m.position :: wordBytes m.marker.number ++ [m.marker.kind.code])

/-- R76: the error mark and the overrun mark are cleared. -/
def Link.clearMarks (l : Link) : Link := { l with errorMark := false, overrunMark := false }

/-- READ LINKS (R76). -/
def actReadLinks (s : State) : State × Response :=
  okWith (s.links.toList.flatMap linkBytes ++ queueBytes s.queue)
    (s.setLinks (Vector.ofFn fun n : Fin 4 => s.links[n].clearMarks))

def execReadLinks (s : State) : Host.Outcome State Fault Refusal :=
  .next (s.request .readLinks actReadLinks)

end Sys2Proof.Machine
end

