-- ==== Sys2Proof/Machine/Periods.lean ====
section
/-!
DEFINITION. Family: period close, amendment, suspension and retirement (R144, R147 to R150, R153,
R155 to R158, R160).
-/

namespace Sys2Proof.Machine

/-! ## Close and fetch -/

/-- CLOSE PERIOD's own rule (R144). -/
def ownClosePeriod (i : Fin 32) (s : State) : State × Response :=
  let a := s.slots[i]
  if a.state ≠ .active ∧ a.state ≠ .suspended then refuse .wrongState s
  else if a.snapshot.isSome then refuse .snapshotUnread s
  else if a.closePending then okWith [flagByte true] s
  else okWith [flagByte false] (s.setSlot i { a with closePending := true })

/-- CLOSE PERIOD (R13, R144). -/
def actClosePeriod (account : Word) (s : State) : State × Response :=
  accountCommand account false ownClosePeriod s

def execClosePeriod (account : Word) (s : State) : Host.Outcome State Fault Refusal :=
  .next (s.request (.closePeriod account) (actClosePeriod account))

/-- R147: the items of a fetched snapshot. -/
def fetchedBytes (account : Word) (i : Fin 32) (p : Snapshot) (vacated : Bool) : List Byte :=
  wordBytes account ++ [u8 i.val] ++ snapshotBytes p ++ [flagByte vacated]

/-- FETCH CLOSED's own rule (R147). -/
def ownFetchClosed (account : Word) (i : Fin 32) (s : State) : State × Response :=
  match s.slots[i].snapshot with
  | none => refuse .noSnapshot s
  | some p =>
    if s.slots[i].state = .retired then
      okWith (fetchedBytes account i p true) (s.vacate i)
    else
      okWith (fetchedBytes account i p false)
        (s.setSlot i { s.slots[i] with snapshot := none })

/-- FETCH CLOSED (R13, R147). -/
def actFetchClosed (account : Word) (s : State) : State × Response :=
  accountCommand account false (ownFetchClosed account) s

def execFetchClosed (account : Word) (s : State) : Host.Outcome State Fault Refusal :=
  .next (s.request (.fetchClosed account) (actFetchClosed account))

/-! ## Amendments -/

/-- R148 step 1: the account is RETIRING or RETIRED, or holds a COMMITTED amendment. -/
def stagingBarred (a : Account) : Bool :=
  a.state == .retiring || a.state == .retired ||
  match a.amendment with
  | some ⟨.committed _, _⟩ => true
  | _ => false

/-- R148: the amendment is stored, and the terms of a STAGED one it replaces are released. -/
def State.storeAmendment (i : Fin 32) (image : ContractImage) (s : State) : State :=
  ((s.releaseTerms s.slots[i].amendmentTerms).addTerms image.terms).setSlot i
    { s.slots[i] with amendment := some ⟨.staged, image.stored⟩ }

/-- STAGE AMENDMENT's own rule (R148). -/
def ownStageAmendment (image : ContractImage) (i : Fin 32) (s : State) : State × Response :=
  if stagingBarred s.slots[i] then refuse .wrongState s
  else
    match s.contractCheck image with
    | some status => refuse status s
    | none =>
      if s.directoryAccount i ≠ some image.account then refuse .badOperand s
      else okWith [flagByte s.slots[i].amendment.isSome] (s.storeAmendment i image)

/-- STAGE AMENDMENT (R13, R148). -/
def actStageAmendment (account : Word) (image : ContractImage) (s : State) : State × Response :=
  accountCommand account true (ownStageAmendment image) s

def execStageAmendment (account : Word) (image : ContractImage) (s : State) :
    Host.Outcome State Fault Refusal :=
  .next (s.request (.stageAmendment account image) (actStageAmendment account image))

/-- The contract of a STAGED amendment (R149 step 3). -/
def stagedContract (a : Account) : Option ContractImage :=
  match a.amendment with
  | some ⟨.staged, c⟩ => some c
  | _ => none

/-- COMMIT AMENDMENT's own rule (R149). -/
def ownCommitAmendment (mode : Byte) (i : Fin 32) (s : State) : State × Response :=
  match modeOf mode with
  | none => refuse .badOperand s
  | some m =>
    if s.slots[i].state = .retiring ∨ s.slots[i].state = .retired then refuse .wrongState s
    else
      match stagedContract s.slots[i] with
      | none => refuse .nothingStaged s
      | some c =>
        if s.slots[i].state = .faulted then okWith [] (s.repair i c)
        else
          okWith []
            (s.setSlot i { s.slots[i] with amendment := some ⟨.committed m, c⟩ })

/-- COMMIT AMENDMENT (R13, R149). -/
def actCommitAmendment (account : Word) (mode : Byte) (s : State) : State × Response :=
  accountCommand account true (ownCommitAmendment mode) s

def execCommitAmendment (account : Word) (mode : Byte) (s : State) :
    Host.Outcome State Fault Refusal :=
  .next (s.request (.commitAmendment account mode) (actCommitAmendment account mode))

/-- WITHDRAW AMENDMENT's own rule (R150). -/
def ownWithdrawAmendment (i : Fin 32) (s : State) : State × Response :=
  match s.slots[i].amendment with
  | none => refuse .nothingStaged s
  | some m =>
    okWith [m.status.code]
      ((s.releaseTerms m.contract.terms).setSlot i { s.slots[i] with amendment := none })

/-- WITHDRAW AMENDMENT (R13, R150). -/
def actWithdrawAmendment (account : Word) (s : State) : State × Response :=
  accountCommand account true ownWithdrawAmendment s

def execWithdrawAmendment (account : Word) (s : State) : Host.Outcome State Fault Refusal :=
  .next (s.request (.withdrawAmendment account) (actWithdrawAmendment account))

/-! ## Suspension -/

/-- The outcome codes of SUSPEND and RESUME (R182). -/
def outcomeSet : Byte := 0
def outcomeNoChange : Byte := 1
def outcomeCancelled : Byte := 2

/-- SUSPEND ACCOUNT's own rule (R155). -/
def ownSuspendAccount (i : Fin 32) (s : State) : State × Response :=
  let a := s.slots[i]
  match a.state with
  | .active =>
    if a.suspendPending then okWith [outcomeNoChange] s
    else okWith [outcomeSet] (s.setSlot i { a with suspendPending := true })
  | .suspended =>
    if a.resumePending then
      okWith [outcomeCancelled] (s.setSlot i { a with resumePending := false })
    else okWith [outcomeNoChange] s
  | _ => refuse .wrongState s

/-- SUSPEND ACCOUNT (R13, R155). -/
def actSuspendAccount (account : Word) (s : State) : State × Response :=
  accountCommand account false ownSuspendAccount s

def execSuspendAccount (account : Word) (s : State) : Host.Outcome State Fault Refusal :=
  .next (s.request (.suspendAccount account) (actSuspendAccount account))

/-- RESUME ACCOUNT's own rule (R156). -/
def ownResumeAccount (i : Fin 32) (s : State) : State × Response :=
  let a := s.slots[i]
  match a.state with
  | .suspended =>
    if a.resumePending then okWith [outcomeNoChange] s
    else okWith [outcomeSet] (s.setSlot i { a with resumePending := true })
  | .active =>
    if a.suspendPending then
      okWith [outcomeCancelled] (s.setSlot i { a with suspendPending := false })
    else okWith [outcomeNoChange] s
  | _ => refuse .wrongState s

/-- RESUME ACCOUNT (R13, R156). -/
def actResumeAccount (account : Word) (s : State) : State × Response :=
  accountCommand account false ownResumeAccount s

def execResumeAccount (account : Word) (s : State) : Host.Outcome State Fault Refusal :=
  .next (s.request (.resumeAccount account) (actResumeAccount account))

/-! ## Retirement -/

/-- The outcome codes of RETIRE ACCOUNT (R182). -/
def outcomeVacated : Byte := 0
def outcomeRetiring : Byte := 1
def outcomeRetired : Byte := 2

/-- R158: an ACTIVE or SUSPENDED account becomes RETIRING. -/
def retiringRecord (a : Account) : Account :=
  { a with
    state := .retiring, closePending := false, suspendPending := false, resumePending := false }

/-- RETIRE ACCOUNT's own rule (R157). -/
def ownRetireAccount (i : Fin 32) (s : State) : State × Response :=
  let a := s.slots[i]
  if a.state = .retiring ∨ a.state = .retired then refuse .wrongState s
  else if a.snapshot.isSome then refuse .snapshotUnread s
  else
    match a.state with
    | .opening => okWith [outcomeVacated] (s.vacate i)
    | .faulted => okWith [outcomeRetired] (s.closeFaulted i)
    | _ => okWith [outcomeRetiring] (s.setSlot i (retiringRecord a))

/-- RETIRE ACCOUNT (R13, R157). -/
def actRetireAccount (account : Word) (s : State) : State × Response :=
  accountCommand account true ownRetireAccount s

def execRetireAccount (account : Word) (s : State) : Host.Outcome State Fault Refusal :=
  .next (s.request (.retireAccount account) (actRetireAccount account))

end Sys2Proof.Machine
end

