-- ==== Sys2Proof/Machine/Port.lean ====
section
/-!
DEFINITION. Family: transactions on the request port and the end of an execution (R172 to R177).
-/

namespace Sys2Proof.Machine

/-- The bytes the part shifts out are recorded, the port byte first (R172, log 15). -/
def State.shiftOut (bytes : List Byte) (s : State) : State :=
  s.setPort { s.port with shiftedOut := s.port.state.byte :: bytes }

/-- So many zero bytes. -/
def zeroBytes (n : Nat) : List Byte := List.replicate n 0

/-- R174: a SEND transaction. -/
def State.send (message : List Byte) (s : State) : State :=
  let t := s.shiftOut (zeroBytes message.length)
  match s.port.state with
  | .executing _ => t
  | _ => t.setPort { t.port with state := .executing (judgeRequest message) }

/-- SEND_TRANSACTION (R174, R175). While main power is off or the reset pin is held no request is taken
(R188) and no bytes are recorded (DESIGN CHOICE, log 31). -/
def execSendTransaction (message : List Byte) (s : State) : Host.Outcome State Fault Refusal :=
  .next (if s.awake then s.send message else s)

/-- R177: a READ transaction in which so many bytes are clocked after the code. -/
def State.read (clocked : Nat) (s : State) : State :=
  match s.port.state with
  | .responseReady r =>
    let t := s.shiftOut ((r.bytes ++ zeroBytes clocked).take clocked)
    if r.bytes.length ≤ clocked then t.setPort { t.port with state := .idle } else t
  | _ => s.shiftOut (zeroBytes clocked)

/-- READ_TRANSACTION (R177). While main power is off or the reset pin is held no bytes are recorded
(DESIGN CHOICE, log 31). -/
def execReadTransaction (clocked : Nat) (s : State) : Host.Outcome State Fault Refusal :=
  .next (if s.awake then s.read clocked else s)

/-- R172: a transaction that is neither SEND nor READ. -/
def State.void (code : Option Byte) (later : Nat) (s : State) : State :=
  match code with
  | some _ => s.shiftOut (zeroBytes later)
  | none => s.setPort { s.port with shiftedOut := [] }

/-- VOID_TRANSACTION (R172): nothing changes but what the part last shifted out (log 15); while main
power is off or the reset pin is held that stands too (DESIGN CHOICE, log 31). -/
def execVoidTransaction (code : Option Byte) (later : Nat) (s : State) :
    Host.Outcome State Fault Refusal :=
  .next (if s.awake then s.void code later else s)

/-- R176: the response is composed and READY asserted. -/
def State.endExecution (s : State) : State :=
  match s.port.state with
  | .executing (.acted r) => s.setPort { s.port with state := .responseReady r }
  | _ => s

/-- EXECUTION_ENDS (R176): no event before the command has acted (log 1). -/
def execExecutionEnds (s : State) : Host.Outcome State Fault Refusal :=
  .next (if s.awake then s.endExecution else s)

end Sys2Proof.Machine
end

