-- ==== Sys2Proof/Machine/Power.lean ====
section
/-!
DEFINITION. Family: power, reset pin, storage, ENGINE CLEAR and READ IDENTITY (R21, R180, R183 to
R189).
-/

namespace Sys2Proof.Machine

/-- POWER_ON (R184, R187): main power returns; no event while it is present (log 1). -/
def execPowerOn (s : State) : Host.Outcome State Fault Refusal :=
  .next
    (if s.device.mainPower then s
    else if s.device.retentionValid then s.startUp .powerOn
    else s.startLost)

/-- MAIN_POWER_LOSS (R183): the working state is lost and retained state stands (logs 8 and 9). -/
def execMainPowerLoss (s : State) : Host.Outcome State Fault Refusal :=
  .next
    (if s.device.mainPower then
      (s.setDevice { s.device with mainPower := false, resetHeld := false }).dropWorking
    else s)

/-- BACKUP_SUPPLY_LOSS (R183): the validity mark is lost while main power is off, and is not lost
while main power is present. The model's choices (log 29): a supply that is low already when main
power goes off is given as a new BACKUP_SUPPLY_LOSS, and the lost items keep their old values in
`State` until the next power-on sets them. -/
def execBackupSupplyLoss (s : State) : Host.Outcome State Fault Refusal :=
  .next
    (if s.device.mainPower then s
    else s.setDevice { s.device with retentionValid := false })

/-- RESET_PIN_ASSERTED (R178, R188): the execution is abandoned and the part is held; the clock
goes on under its second source, its phase and pulse gap as they stand (logs 8 and 9). -/
def execResetPinAsserted (s : State) : Host.Outcome State Fault Refusal :=
  .next
    (if s.awake then (s.setDevice { s.device with resetHeld := true }).dropWorking else s)

/-- RESET_PIN_RELEASED (R188): the start-up sequence runs with cause PIN. -/
def execResetPinReleased (s : State) : Host.Outcome State Fault Refusal :=
  .next (if s.device.mainPower && s.device.resetHeld then s.startUp .pin else s)

/-- STORAGE_DISTURBANCE (R21): the stored contract part and check code of an occupied slot change,
and nothing else (log 22). -/
def execStorageDisturbance (slot : Fin 32) (contract : ContractImage) (checkCode : Half)
    (s : State) : Host.Outcome State Fault Refusal :=
  .next
    (if s.slots[slot].state = .vacant then s
    else s.setSlot slot { s.slots[slot] with contract := contract, checkCode := checkCode })

/-- R189: what ENGINE CLEAR does when it is taken. -/
def State.engineClear (s : State) : State :=
  (((((s.setQueue IntakeQueue.empty).setClock { s.clock with markerWaiting := false }).setLinks
    (Vector.replicate 4 (Link.afterReset s.holdTime))).setAttention
      { s.attention with pendingSet := [] }).resetChannels channelAfterClear).setDevice
        { s.device with resetCause := .engineClear }

/-- ENGINE CLEAR (R128, R189): next slot is 32, which it is whenever the sweep is IDLE. -/
def actEngineClear (s : State) : State × Response :=
  if s.sweep.running then refuse .sweepActive s
  else
    okWith [u8 s.queue.entries.length, flagByte s.queue.marker.isSome]
      (s.engineClear.setSweep { s.sweep with nextSlot := 32, heldMarker := false })

def execEngineClear (s : State) : Host.Outcome State Fault Refusal :=
  .next (s.request .engineClear actEngineClear)

/-- READ IDENTITY (R180). No field type of R182 names vendor code, part code and revision: they are
carried in 2, 2 and 1 bytes by the model's choice (DESIGN CHOICE, log 12). -/
def actReadIdentity (s : State) : State × Response :=
  okWith
    (halfBytes 0x0E7A ++ halfBytes 0x0D32 ++
      [0x01, s.device.resetCause.code, flagByte s.device.retentionLost, u8 s.holdTime]) s

def execReadIdentity (s : State) : Host.Outcome State Fault Refusal :=
  .next (s.request .readIdentity actReadIdentity)

end Sys2Proof.Machine
end

