-- ==== Sys2Proof/Machine/Sweep.lean ====
section
/-!
DEFINITION. Family: the taking of a marker, the sweep's visits and READ SWEEP (R93, R105 to R108,
R127).
-/

namespace Sys2Proof.Machine

/-- R65: the marker at the head is taken while no sweep runs. -/
def State.takeMarker (s : State) : State :=
  match s.queue.marker with
  | some q => s.startSweep q.marker
  | none => s

/-- TAKE_MARKER (R65, R93, R105). -/
def execTakeMarker (s : State) : Host.Outcome State Fault Refusal :=
  .next (if s.awake && s.markerAtHead && !s.sweep.running then s.takeMarker else s)

/-- R107: the sweep visits the slot its record names. -/
def State.visitNext (s : State) : State :=
  if h : s.sweep.nextSlot < 32 then
    (s.visitSlot ⟨s.sweep.nextSlot, h⟩).afterVisit ⟨s.sweep.nextSlot, h⟩
  else s

/-- SWEEP_VISIT (R107, R108). -/
def execSweepVisit (s : State) : Host.Outcome State Fault Refusal :=
  .next (if s.awake && s.sweep.running then s.visitNext else s)

/-- READ SWEEP (R127). -/
def actReadSweep (s : State) : State × Response :=
  okWith
    ([flagByte s.sweep.running] ++ wordBytes s.sweep.b ++ calTimeBytes s.sweep.time ++
      [s.sweep.kind.code, u8 s.sweep.nextSlot, flagByte s.sweep.heldMarker]) s

def execReadSweep (s : State) : Host.Outcome State Fault Refusal :=
  .next (s.request .readSweep actReadSweep)

end Sys2Proof.Machine
end

