-- ==== Sys2Proof/Machine/Tariff.lean ====
section
/-!
DEFINITION. Family: tariff table (R51 to R56).
-/

namespace Sys2Proof.Machine

/-- R52: a schedule slot becomes LOADED with these contents. -/
def State.loadSchedule (slot : Fin 8) (contents : Schedule) (s : State) : State :=
  s.setTariff { s.tariff with schedules := s.tariff.schedules.set slot (some contents) }

/-- LOAD SCHEDULE (R51, R52). -/
def actLoadSchedule (slot : Byte) (body : List Byte) (s : State) : State × Response :=
  match checkSchedule s.clock.subinterval slot body with
  | .badOperand => refuse .badOperand s
  | .badSchedule f => (s, ⟨.badSchedule, [f.part, f.index, f.position]⟩)
  | .schedule k contents =>
    if s.sweep.running then refuse .sweepActive s
    else okWith [flagByte s.tariff.schedules[k].isSome] (s.loadSchedule k contents)

def execLoadSchedule (slot : Byte) (body : List Byte) (s : State) :
    Host.Outcome State Fault Refusal :=
  .next (s.request (.loadSchedule slot body) (actLoadSchedule slot body))

/-- A day program: its point count and its points (R182). -/
def programBytes (points : List SwitchPoint) : List Byte :=
  listBytes (fun p => halfBytes (BitVec.ofNat 16 p.minute) ++ [u8 p.period.val]) points

/-- The contents of a LOADED slot (R55). -/
def scheduleBytes (p : Schedule) : List Byte :=
  p.periods.toList.flatMap
    (fun a => [flagByte a.demandChargeable, flagByte a.leadingPenalised]) ++
  programBytes p.weekday ++ programBytes p.saturday ++ programBytes p.sunday ++
  programBytes p.holiday

/-- READ SCHEDULE (R55). -/
def actReadSchedule (slot : Byte) (s : State) : State × Response :=
  match s.scheduleSlot slot.toNat with
  | none => refuse .badOperand s
  | some none => okWith [0] s
  | some (some p) => okWith (1 :: scheduleBytes p) s

def execReadSchedule (slot : Byte) (s : State) : Host.Outcome State Fault Refusal :=
  .next (s.request (.readSchedule slot) (actReadSchedule slot))

/-- LOAD HOLIDAYS (R53). -/
def actLoadHolidays (count : Byte) (body : List Byte) (s : State) : State × Response :=
  match checkHolidays count body with
  | none => refuse .badOperand s
  | some dates =>
    if s.sweep.running then refuse .sweepActive s
    else okWith [] (s.setTariff { s.tariff with holidays := dates })

def execLoadHolidays (count : Byte) (body : List Byte) (s : State) :
    Host.Outcome State Fault Refusal :=
  .next (s.request (.loadHolidays count body) (actLoadHolidays count body))

/-- READ HOLIDAYS (R56). -/
def actReadHolidays (s : State) : State × Response :=
  okWith (listBytes dateBytes s.tariff.holidays) s

def execReadHolidays (s : State) : Host.Outcome State Fault Refusal :=
  .next (s.request .readHolidays actReadHolidays)

end Sys2Proof.Machine
end

