-- ==== Sys2Proof/Machine/Dispatch.lean ====
section
/-!
DEFINITION. One arm per command of spec/opcode_table.json, in the table's order, each one call of
the command's meaning.
-/

namespace Sys2Proof.Machine

def exec (i : Instr) (s : State) : Host.Outcome State Fault Refusal :=
  match i with
  | .sendTransaction message => Sys2Proof.Machine.execSendTransaction message s
  | .readTransaction clocked => Sys2Proof.Machine.execReadTransaction clocked s
  | .voidTransaction code later => Sys2Proof.Machine.execVoidTransaction code later s
  | .executionEnds => Sys2Proof.Machine.execExecutionEnds s
  | .readIdentity => Sys2Proof.Machine.execReadIdentity s
  | .engineClear => Sys2Proof.Machine.execEngineClear s
  | .setClock time source => Sys2Proof.Machine.execSetClock time source s
  | .readClock => Sys2Proof.Machine.execReadClock s
  | .setSubinterval length => Sys2Proof.Machine.execSetSubinterval length s
  | .loadSchedule slot body => Sys2Proof.Machine.execLoadSchedule slot body s
  | .readSchedule slot => Sys2Proof.Machine.execReadSchedule slot s
  | .loadHolidays count body => Sys2Proof.Machine.execLoadHolidays count body s
  | .readHolidays => Sys2Proof.Machine.execReadHolidays s
  | .setHoldTime seconds => Sys2Proof.Machine.execSetHoldTime seconds s
  | .readLinks => Sys2Proof.Machine.execReadLinks s
  | .registerMeter channel identity ratedPower => Sys2Proof.Machine.execRegisterMeter channel identity ratedPower s
  | .releaseMeter channel => Sys2Proof.Machine.execReleaseMeter channel s
  | .setChannelPolicy channel policy timeout ratedPower => Sys2Proof.Machine.execSetChannelPolicy channel policy timeout ratedPower s
  | .readChannel channel => Sys2Proof.Machine.execReadChannel channel s
  | .openAccount image => Sys2Proof.Machine.execOpenAccount image s
  | .listAccounts start => Sys2Proof.Machine.execListAccounts start s
  | .readAccount account => Sys2Proof.Machine.execReadAccount account s
  | .readRegisters account period => Sys2Proof.Machine.execReadRegisters account period s
  | .readPeaks account => Sys2Proof.Machine.execReadPeaks account s
  | .readSweep => Sys2Proof.Machine.execReadSweep s
  | .closePeriod account => Sys2Proof.Machine.execClosePeriod account s
  | .fetchClosed account => Sys2Proof.Machine.execFetchClosed account s
  | .stageAmendment account image => Sys2Proof.Machine.execStageAmendment account image s
  | .commitAmendment account mode => Sys2Proof.Machine.execCommitAmendment account mode s
  | .withdrawAmendment account => Sys2Proof.Machine.execWithdrawAmendment account s
  | .suspendAccount account => Sys2Proof.Machine.execSuspendAccount account s
  | .resumeAccount account => Sys2Proof.Machine.execResumeAccount account s
  | .retireAccount account => Sys2Proof.Machine.execRetireAccount account s
  | .takeAttention => Sys2Proof.Machine.execTakeAttention s
  | .dismiss kinds source => Sys2Proof.Machine.execDismiss kinds source s
  | .setAttentionMask mask => Sys2Proof.Machine.execSetAttentionMask mask s
  | .readAttention kind => Sys2Proof.Machine.execReadAttention kind s
  | .powerOn => Sys2Proof.Machine.execPowerOn s
  | .mainPowerLoss => Sys2Proof.Machine.execMainPowerLoss s
  | .backupSupplyLoss => Sys2Proof.Machine.execBackupSupplyLoss s
  | .resetPinAsserted => Sys2Proof.Machine.execResetPinAsserted s
  | .resetPinReleased => Sys2Proof.Machine.execResetPinReleased s
  | .storageDisturbance slot contract checkCode => Sys2Proof.Machine.execStorageDisturbance slot contract checkCode s
  | .secondPulseEdge => Sys2Proof.Machine.execSecondPulseEdge s
  | .internalSecond => Sys2Proof.Machine.execInternalSecond s
  | .pulseLossFallback => Sys2Proof.Machine.execPulseLossFallback s
  | .frameReceived link first rest => Sys2Proof.Machine.execFrameReceived link first rest s
  | .idleGap link => Sys2Proof.Machine.execIdleGap link s
  | .lineReturnsToMarking link => Sys2Proof.Machine.execLineReturnsToMarking link s
  | .lineBreak link => Sys2Proof.Machine.execLineBreak link s
  | .transmissionComplete link => Sys2Proof.Machine.execTransmissionComplete link s
  | .refreshPoint link => Sys2Proof.Machine.execRefreshPoint link s
  | .holdExpiry link => Sys2Proof.Machine.execHoldExpiry link s
  | .presenceTimerExpiry channel => Sys2Proof.Machine.execPresenceTimerExpiry channel s
  | .takeFrameEntry => Sys2Proof.Machine.execTakeFrameEntry s
  | .takeMarker => Sys2Proof.Machine.execTakeMarker s
  | .sweepVisit => Sys2Proof.Machine.execSweepVisit s
  | .characterReceived link char goodStop => Sys2Proof.Machine.execCharacterReceived link char goodStop s
  | .outageSecondAdvance => Sys2Proof.Machine.execOutageSecondAdvance s

end Sys2Proof.Machine
end

