-- ==== Sys2Proof/Machine/Step.lean ====
section
/-!
DEFINITION. One step of the block: the command at the front of the queue acts; with none waiting,
half a second of the internal oscillator passes (log 3).
-/

namespace Sys2Proof.Machine

/-- The state with the queue of waiting commands replaced. -/
def State.withPending (s : State) (waiting : List Instr) : State := s.setPending waiting

/-- One step: the command at the front of the queue acts on the state whose queue is the rest;
an empty queue lets half a second pass (log 3). -/
def step (s : State) : Host.Outcome State Fault Refusal :=
  match s.pending with
  | [] => .next s.tick
  | c :: rest => exec c (s.withPending rest)

/-- The state with the command that a word of the table's bits spells put at the front of the
queue; the table gives no row any bits, so no word spells one. -/
def State.withFetchWord (s : State) (nbits w : Nat) : State :=
  match decodeTableWord nbits w with
  | some c => s.withPending (c :: s.pending)
  | none => s

end Sys2Proof.Machine
end

