-- ==== Sys2Proof/Safety.lean ====
section
/-!
DEFINITION. What counts as a safe run, and the invariants of the part in the terms the statements
use: queue and marker (R34, R63, R108), pending set (R163), calendar (R26), credit (R92), presence
timers (R74, R80), link receivers (R58), flow states (R67), directory (R12), accounts (R11, R97,
R133, R144 to R159) and tariff table (R45, R46).
-/

namespace Sys2Proof.Machine

/-- A step that answers a next state. -/
def completes (o : Host.Outcome State Fault Refusal) : Bool :=
  match o with
  | .next _ => true
  | .fault _ => false
  | .refused _ => false

/-- So many steps all answer a next state. -/
def runsSafely : Nat → State → Bool
  | 0, _ => true
  | n + 1, s =>
    match step s with
    | .next t => runsSafely n t
    | .fault _ => false
    | .refused _ => false

/-- R63: at most 64 frame entries, and a marker no further back than the tail. -/
def IntakeQueue.bounded (q : IntakeQueue) : Bool :=
  decide (q.entries.length ≤ Config.queueCapacity) &&
  match q.marker with
  | some m => decide (m.position ≤ q.entries.length)
  | none => true

/-- R26, R34: marker waiting is set exactly while a marker is in the queue. -/
def State.markerAgrees (s : State) : Bool := s.clock.markerWaiting == s.queue.marker.isSome

/-- R104, R108: the held-marker flag is set exactly while a marker stands at the head and the
sweep runs. -/
def State.heldAgrees (s : State) : Bool :=
  s.sweep.heldMarker == (s.markerAtHead && s.sweep.running)

/-- R104: a running sweep names a slot, and an idle one has next slot 32. -/
def Sweep.sound (w : Sweep) : Bool :=
  if w.running then decide (w.nextSlot < 32) else decide (w.nextSlot = 32)

/-- The queue, the marker and the sweep agree. -/
def State.queueSound (s : State) : Bool :=
  s.queue.bounded && s.markerAgrees && s.heldAgrees && s.sweep.sound

/-- R162: the source number is in the range of the kind. -/
def AttnPair.inRange (p : AttnPair) : Bool := decide (p.source < p.kind.sources)

/-- R163, R165: strictly in taking order, so no pair twice. -/
def takingOrder : List AttnPair → Bool
  | p :: q :: rest => decide (p.key < q.key) && takingOrder (q :: rest)
  | _ => true

/-- R163: the pending set holds pairs in range, none twice, in taking order (log 16). -/
def Attention.sound (a : Attention) : Bool :=
  a.pendingSet.all AttnPair.inRange && takingOrder a.pendingSet

/-- R26, R47: real times, and the day of week of the calendar date. -/
def Clock.sound (c : Clock) : Bool :=
  c.time.valid && c.lastBoundary.valid && decide (c.dayOfWeek = c.time.date.dayOfWeek) &&
  decide (c.subinterval ∈ Config.subintervalLengths) && decide (c.phaseHalves ≤ 1) &&
  decide (c.gapHalves ≤ 5)

/-- R92, R78: no credit outside SILENT, and none under DEFER. -/
def Channel.creditSound (c : Channel) : Bool :=
  decide (c.credit = Triple.same 0) || (decide (c.state = .silent) && decide (c.policy = .holdLast))

/-- R80: in UNREGISTERED the timer is STOPPED at 0; a timer that runs has time left, and none has
more than its limit of 60 s. -/
def Channel.timerSound (c : Channel) : Bool :=
  (decide (c.state ≠ .unregistered) ||
    (decide (c.timerMode = .stopped) && decide (c.timerHalves = 0))) &&
  decide (2 ≤ c.timeout) && decide (c.timeout ≤ 60) && decide (c.timerHalves ≤ 120) &&
  decide (c.implausibleRun ≤ 2)

/-- R78: which optional fields are present in which state. -/
def Channel.presenceSound (c : Channel) : Bool :=
  match c.state with
  | .unregistered =>
    c.identity.isNone && c.lastTotals.isNone && c.lastSequence.isNone && c.lastSecond.isNone
  | .awaiting =>
    c.identity.isSome && c.ratedPower.isSome && c.lastTotals.isNone && c.lastSequence.isNone &&
    c.lastSecond.isNone
  | _ => c.identity.isSome && c.ratedPower.isSome && c.lastTotals.isSome && c.lastSequence.isSome

/-- A channel record as the rules keep it. -/
def Channel.sound (c : Channel) : Bool := c.creditSound && c.timerSound && c.presenceSound

/-- R58, R59: fewer than 25 characters collected, some while COLLECTING and none otherwise. -/
def Link.receiverSound (l : Link) : Bool :=
  if l.receive = .collecting then
    decide (1 ≤ l.collected.length) && decide (l.collected.length < Config.frameLength)
  else decide (l.collected = []) && !l.charError

/-- A HOLD waits or is in transmission. -/
def Link.holdUnderWay (l : Link) : Bool :=
  decide (l.waitingControl = some .hold) ||
  match l.transmitter with
  | .sendingHold _ => true
  | _ => false

/-- A RELEASE waits or is in transmission. -/
def Link.releaseUnderWay (l : Link) : Bool :=
  decide (l.waitingControl = some .release) || decide (l.transmitter = .sendingRelease)

/-- R67: the control frame that a flow state has waiting or in transmission, and the hold timer
that a HELD link runs on. -/
def Link.flowSound (l : Link) : Bool :=
  match l.flow with
  | .flowing => decide (l.waitingControl = none)
  | .holdPending => l.holdUnderWay && decide (l.waitingControl ≠ some .release)
  | .held =>
    decide (l.waitingControl ≠ some .release) && decide (l.transmitter ≠ .sendingRelease) &&
    l.holdTimer.isSome
  | .releasePending =>
    l.releaseUnderWay && decide (l.waitingControl ≠ some .hold) &&
    (decide (l.waitingControl = none) ||
      (decide (l.transmitter ≠ .sendingRelease) && (l.holdTimer.isSome || l.holdUnderWay)))

/-- R70: a frame waits only while the transmitter is busy. -/
def Link.transmitterSound (l : Link) : Bool :=
  decide (l.transmitter ≠ .idle) || (decide (l.waitingControl = none) && l.waitingTime.isNone)

/-- A link record as the rules keep it. -/
def Link.sound (l : Link) : Bool := l.receiverSound && l.flowSound && l.transmitterSound

/-- R74: while the part is awake, the presence timer of a registered channel is FROZEN exactly
while its link is not FLOWING. -/
def State.timerAgrees (k : Fin 16) (s : State) : Bool :=
  !s.awake || decide (s.channels[k].state = .unregistered) ||
  (decide (s.channels[k].timerMode = .frozen) == !s.flowing (linkOf k))

/-- R12: strictly ascending account numbers. -/
def directoryAscends : List DirectoryEntry → Bool
  | a :: b :: rest =>
    decide (a.account.toNat < b.account.toNat) && directoryAscends (b :: rest)
  | _ => true

/-- R12: one entry for each slot that is not VACANT, and none for a VACANT slot. -/
def State.slotListed (i : Fin 32) (s : State) : Bool :=
  (s.directory.countP fun e => e.slot == i) == if s.slots[i].state = .vacant then 0 else 1

/-- R12: the directory agrees with the slots. -/
def State.directorySound (s : State) : Bool :=
  directoryAscends s.directory && slotNumbers.all fun i => s.slotListed i

/-- R144, R155 to R158: the pending flags an account's state admits. -/
def Account.pendingSound (a : Account) : Bool :=
  (!a.closePending ||
    ((a.state == .active || a.state == .suspended) && a.snapshot.isNone)) &&
  (!a.suspendPending || a.state == .active) && (!a.resumePending || a.state == .suspended)

/-- R18: a VACANT slot is in the cleared form. -/
def Account.vacantSound (a : Account) : Bool :=
  decide (a.state ≠ .vacant) || decide (a = Account.cleared)

/-- R146, R147, R159: the snapshot an account's state admits. -/
def Account.snapshotSound (a : Account) : Bool :=
  match a.state with
  | .vacant => a.snapshot.isNone
  | .opening => a.snapshot.isNone
  | .retiring => a.snapshot.isNone
  | .retired =>
    match a.snapshot with
    | some p => p.finalClose
    | none => false
  | _ => true

/-- R133: descending order of demand. -/
def topDescends : List TopEntry → Bool
  | a :: b :: rest => decide (b.demand.toNat ≤ a.demand.toNat) && topDescends (b :: rest)
  | _ => true

/-- R11: an account in a swept state is current for b, or one behind while the sweep for b runs
and has not visited it. -/
def State.boundaryAgrees (i : Fin 32) (s : State) : Bool :=
  !s.slots[i].state.swept || decide (s.slots[i].lastBoundary = s.sweep.b) ||
  (s.sweep.running && decide (s.sweep.nextSlot ≤ i.val) &&
    decide (s.slots[i].lastBoundary = s.sweep.b - 1))

/-- R11 over every slot, with the sweep record sound. -/
def State.boundariesSound (s : State) : Bool :=
  s.sweep.sound && slotNumbers.all fun i => s.boundaryAgrees i

/-- R97, R100: a channel's reference count is the number of terms that name it, and a counted
channel is registered. -/
def State.countAgrees (k : Fin 16) (s : State) : Bool :=
  s.channels[k].referenceCount == termsNaming k s.allTerms &&
  (s.channels[k].referenceCount == 0 || decide (s.channels[k].state ≠ .unregistered))

/-- R45: the minutes of a day program rise strictly. -/
def minutesRise : List SwitchPoint → Bool
  | a :: b :: rest => decide (a.minute < b.minute) && minutesRise (b :: rest)
  | _ => true

/-- R45: a stored day program: 1 to 8 points, the first at minute 0, minutes that rise and stay
below 1440, and fit the subinterval length in force. -/
def programSound (length : Nat) (points : List SwitchPoint) : Bool :=
  decide (points.length ≤ 8) && minutesRise points && programFits length points &&
  points.all (fun p => decide (p.minute ≤ 1439)) &&
  match points with
  | p :: _ => p.minute == 0
  | [] => false

/-- R45: the four day programs of a stored schedule. -/
def scheduleSound (length : Nat) (p : Schedule) : Bool :=
  programSound length p.weekday && programSound length p.saturday &&
  programSound length p.sunday && programSound length p.holiday

/-- R46: a holiday list of at most 24 real dates, strictly ascending. -/
def holidaysSound (dates : List Date) : Bool :=
  decide (dates.length ≤ 24) && dates.all Date.valid && datesAscend dates

/-- R43, R45, R46: the tariff table. -/
def State.tariffSound (s : State) : Bool :=
  holidaysSound s.tariff.holidays &&
  s.tariff.schedules.toList.all fun slot =>
    match slot with
    | some p => scheduleSound s.clock.subinterval p
    | none => true

end Sys2Proof.Machine
end

