-- ==== Sys2Proof/Certificates/Slice0/Obligations.lean ====
section
/-!
DEFINITION. The statements for the provers. `answer (t, r)` is the state t with the request acted
and its response r not yet composed (R176).
-/

open Sys2Proof Sys2Proof.Machine

/-! ## Step and request port -/

/-- Asked of every block: a step takes the command at the front of the queue and runs it on the
state whose queue is the rest. -/
def Obligations.StepRunsTheCommandInFront : Prop :=
  ∀ (c : Instr) (rest : List Instr) (s : State),
    step (s.withPending (c :: rest)) = exec c (s.withPending rest)

/-- R172, R174: SEND is taken in IDLE and RESPONSE_READY, where the unread response is discarded;
in EXECUTING it is not taken. -/
def Obligations.SendIsTakenUnlessExecuting : Prop :=
  ∀ (m : List Byte) (s : State), s.awake = true →
    (s.port.state = .idle →
      exec (.sendTransaction m) s =
        .next { s with port :=
          ⟨.executing (judgeRequest m), 0xE0 :: List.replicate m.length 0⟩ }) ∧
    (∀ r, s.port.state = .responseReady r →
      exec (.sendTransaction m) s =
        .next { s with port :=
          ⟨.executing (judgeRequest m), 0xE2 :: List.replicate m.length 0⟩ }) ∧
    (∀ e, s.port.state = .executing e →
      exec (.sendTransaction m) s =
        .next { s with port := ⟨.executing e, 0x01 :: List.replicate m.length 0⟩ })

/-- The command code table of 10.5: each code with the least and the greatest operand length it
allows. -/
def Sys2Proof.Machine.operandLengths : List (Byte × Nat × Nat) :=
  [(0x01, 0, 0), (0x02, 0, 0), (0x08, 7, 7), (0x09, 0, 0), (0x0A, 2, 2), (0x10, 25, 109),
   (0x11, 1, 1), (0x12, 1, 73), (0x13, 0, 0), (0x18, 1, 1), (0x19, 0, 0)] ++
  [(0x20, 11, 11), (0x21, 1, 1), (0x22, 7, 7), (0x23, 1, 1), (0x30, 33, 33), (0x31, 4, 4),
   (0x32, 4, 4), (0x33, 5, 5), (0x34, 4, 4), (0x35, 0, 0)] ++
  [(0x38, 4, 4), (0x39, 4, 4), (0x3A, 37, 37), (0x3B, 5, 5), (0x3C, 4, 4), (0x3D, 4, 4),
   (0x3E, 4, 4), (0x3F, 4, 4), (0x40, 0, 0), (0x41, 2, 3), (0x42, 2, 2), (0x43, 1, 1)]

/-- R175: checks 1 to 4 over a request message, and the dispatch; check 4 by the operand lengths of
the command code table. -/
def Obligations.RequestIsJudged : Prop :=
  (∀ m : List Byte, m.length < 4 ∨ 256 < m.length →
    judgeRequest m = .acted ⟨.badFrame, []⟩) ∧
  (∀ (code n : Byte) (rest : List Byte), n.toNat + 4 ≠ rest.length + 2 →
    judgeRequest (code :: n :: rest) = .acted ⟨.badFrame, []⟩) ∧
  (∀ (code : Byte) (ops : List Byte) (crc : Half), ops.length ≤ 252 →
    crc ≠ crc16 (code :: u8 ops.length :: ops) →
    judgeRequest (code :: u8 ops.length :: ops ++ halfBytes crc) = .acted ⟨.badFrame, []⟩) ∧
  (∀ (code : Byte) (ops : List Byte), ops.length ≤ 252 →
    judgeRequest (envelope code ops) =
      match decodeRequest code ops with
      | .unknownCommand => .acted ⟨.unknownCommand, [code]⟩
      | .badLength => .acted ⟨.badOperand, []⟩
      | .command c => .dispatched c) ∧
  (∀ x ∈ operandLengths, ∀ ops : List Byte,
    (ops.length < x.2.1 ∨ x.2.2 < ops.length → decodeRequest x.1 ops = .badLength) ∧
    (x.2.1 ≤ ops.length → ops.length ≤ x.2.2 → ∃ c, decodeRequest x.1 ops = .command c)) ∧
  (∀ (code : Byte) (ops : List Byte), code ∉ operandLengths.map Prod.fst →
    decodeRequest code ops = .unknownCommand)

/-- The message that spells a well-formed request command is judged to be that command, with every
operand at every value. -/
def Obligations.SpelledRequestIsDispatched : Prop :=
  ∀ (c : Instr) (m : List Byte), c.wf = true → requestMessage c = some m →
    m.length ≤ 256 ∧ judgeRequest m = .dispatched c

/-- R172, R177: a READ transaction shifts out the response and then zeros, and leaves the port IDLE
exactly when the whole response was clocked out; with no response it shifts out zeros. A void
transaction changes nothing in the part and shifts out zeros, or no whole byte. -/
def Obligations.ReadShiftsOutTheResponse : Prop :=
  ∀ (n : Nat) (s : State), s.awake = true →
    (∀ code, exec (.voidTransaction (some code) n) s =
      .next { s with port := ⟨s.port.state, s.port.state.byte :: List.replicate n 0⟩ }) ∧
    exec (.voidTransaction none n) s = .next { s with port := ⟨s.port.state, []⟩ } ∧
    (∀ r, s.port.state = .responseReady r → r.bytes.length ≤ n →
      exec (.readTransaction n) s =
        .next { s with port :=
          ⟨.idle, 0xE2 :: (r.bytes ++ List.replicate (n - r.bytes.length) 0)⟩ }) ∧
    (∀ r, s.port.state = .responseReady r → n < r.bytes.length →
      exec (.readTransaction n) s =
        .next { s with port := ⟨.responseReady r, 0xE2 :: r.bytes.take n⟩ }) ∧
    (s.port.state = .idle →
      exec (.readTransaction n) s =
        .next { s with port := ⟨.idle, 0xE0 :: List.replicate n 0⟩ }) ∧
    (∀ e, s.port.state = .executing e →
      exec (.readTransaction n) s =
        .next { s with port := ⟨.executing e, 0x01 :: List.replicate n 0⟩ })

/-- R176: when the command has acted the response is composed; data of at most 252 bytes makes one
segment, and longer data two, the first marked with 0x80. -/
def Obligations.ExecutionEndsWithTheResponse : Prop :=
  (∀ (r : Response) (s : State), s.awake = true → s.port.state = .executing (.acted r) →
    exec .executionEnds s =
      .next { s with port := ⟨.responseReady r, s.port.shiftedOut⟩ }) ∧
  (∀ r : Response, r.data.length ≤ 252 → r.segments = [envelope r.status.code r.data]) ∧
  (∀ r : Response, 252 < r.data.length → r.data.length ≤ 504 →
    r.segments =
      [envelope (r.status.code + 0x80) (r.data.take 252),
        envelope r.status.code (r.data.drop 252)])

/-! ## Power, retention and start-up -/

/-- R187: what a power-on with retention lost leaves; it is the model's state after reset (log 7),
with the commands that wait. -/
def Obligations.PowerOnWithRetentionLost : Prop :=
  (∀ s : State, s.device.mainPower = false → s.device.retentionValid = false →
    exec .powerOn s = .next { State.reset with pending := s.pending }) ∧
  (∀ i : Fin 32, State.reset.slots[i] = Account.cleared) ∧ State.reset.directory = [] ∧
  (∀ k : Fin 8, State.reset.tariff.schedules[k] = none) ∧ State.reset.tariff.holidays = [] ∧
  (∀ k : Fin 16, State.reset.channels[k].state = .unregistered ∧
    State.reset.channels[k].referenceCount = 0) ∧
  State.reset.clock.time = ⟨⟨0, 1, 1⟩, 0, 0, 0⟩ ∧ State.reset.clock.dayOfWeek = .saturday ∧
  State.reset.clock.source = .internal ∧ State.reset.clock.trust = false ∧
  State.reset.clock.subinterval = 900 ∧ State.reset.clock.boundaryNumber = 0 ∧
  State.reset.clock.lastBoundary = ⟨⟨0, 1, 1⟩, 0, 0, 0⟩ ∧
  State.reset.sweep = ⟨false, 0, ⟨⟨0, 1, 1⟩, 0, 0, 0⟩, .regular, 32, false⟩ ∧
  State.reset.holdTime = 8 ∧ State.reset.device.retentionLost = true ∧
  State.reset.device.resetCause = .powerOn ∧
  State.reset.attention.pendingSet = [⟨.retentionLost, 0⟩]

/-- R103: a channel after power-on with retention valid and after the reset pin (that an
UNREGISTERED channel too is was-silent is the model's reading, log 10). -/
def Sys2Proof.Machine.restartedChannel (c : Channel) : Channel :=
  { c with
    state := if c.state = .live then .silent else c.state, wasSilent := true,
    lastSecond := none, implausibleRun := 0,
    timerMode := if c.state = .unregistered then c.timerMode else .running,
    timerHalves := if c.state = .unregistered then c.timerHalves else 2 * c.timeout }

/-- R185: a boundary is called for at start-up. -/
def Sys2Proof.Machine.calledFor (s : State) : Prop :=
  sameSubinterval s.clock.subinterval s.clock.lastBoundary s.clock.time = false ∨
  s.clock.boundaryNumber ≠ s.sweep.b

/-- R184 to R186: the state t that start-up makes of s (the empty record of bytes shifted out is the
model's own, log 15). -/
def Sys2Proof.Machine.startedFrom (cause : ResetCause) (s t : State) : Prop :=
  t.device = ⟨true, false, s.device.retentionValid, cause, false⟩ ∧
  t.port = ⟨.idle, []⟩ ∧ t.queue.entries = [] ∧ t.queue.congested = false ∧
  t.attention.mask = 0xFFFF ∧ t.holdTime = s.holdTime ∧ t.tariff = s.tariff ∧
  t.slots = s.slots ∧ t.directory = s.directory ∧ t.pending = s.pending ∧
  (∀ k : Fin 16, t.channels[k] = restartedChannel s.channels[k] ∧
    (⟨.channelSilent, k.val⟩ ∈ t.attention.pendingSet ↔ s.channels[k].state = .live)) ∧
  (∀ n : Fin 4, t.links[n].flow = .flowing ∧ t.links[n].lastHold = s.holdTime) ∧
  t.clock.time = s.clock.time ∧ t.clock.dayOfWeek = s.clock.dayOfWeek ∧
  t.clock.source = s.clock.source ∧ t.clock.trust = s.clock.trust ∧
  t.clock.subinterval = s.clock.subinterval ∧ t.clock.monotonic = 0 ∧
  (calledFor s →
    t.clock.boundaryNumber = s.clock.boundaryNumber + 1 ∧ t.clock.lastBoundary = s.clock.time ∧
    t.queue.marker =
      some ⟨⟨s.clock.boundaryNumber + 1, s.clock.time, .irregular⟩, 0⟩ ∧
    t.clock.markerWaiting = true ∧ ⟨.clockIrregular, 0⟩ ∈ t.attention.pendingSet ∧
    (∀ n : Fin 4, t.links[n] = { Link.afterReset s.holdTime with
      transmitter :=
        .sendingTime ⟨s.clock.time, (s.clock.boundaryNumber + 1).setWidth 8⟩ }) ∧
    t.sweep = { s.sweep with heldMarker := s.sweep.running } ∧
    (⟨.sweepLate, 0⟩ ∈ t.attention.pendingSet ↔ s.sweep.running = true)) ∧
  (¬calledFor s →
    t.clock.boundaryNumber = s.clock.boundaryNumber ∧
    t.clock.lastBoundary = s.clock.lastBoundary ∧ t.queue.marker = none ∧
    t.clock.markerWaiting = false ∧ ⟨.clockIrregular, 0⟩ ∉ t.attention.pendingSet ∧
    (∀ n : Fin 4, t.links[n] = Link.afterReset s.holdTime) ∧
    t.sweep = { s.sweep with heldMarker := false })

/-- R184 to R186, R188: the start-up sequence at power-on with retention valid and at the release of
the reset pin (logs 10 and 15 for what `startedFrom` takes from the model). -/
def Obligations.StartUpKeepsRetainedState : Prop :=
  ∀ s : State,
    (s.device.mainPower = false → s.device.retentionValid = true →
      ∃ t, exec .powerOn s = .next t ∧ startedFrom .powerOn s t) ∧
    (s.device.mainPower = true → s.device.resetHeld = true →
      ∃ t, exec .resetPinReleased s = .next t ∧ startedFrom .pin s t)

/-- R183: every retained item is the same. -/
def Sys2Proof.Machine.sameRetained (s t : State) : Prop :=
  t.slots = s.slots ∧ t.directory = s.directory ∧ t.tariff = s.tariff ∧
  t.channels = s.channels ∧ t.holdTime = s.holdTime ∧
  t.clock.time = s.clock.time ∧ t.clock.dayOfWeek = s.clock.dayOfWeek ∧
  t.clock.source = s.clock.source ∧ t.clock.trust = s.clock.trust ∧
  t.clock.subinterval = s.clock.subinterval ∧
  t.clock.boundaryNumber = s.clock.boundaryNumber ∧
  t.clock.lastBoundary = s.clock.lastBoundary ∧
  t.sweep = { s.sweep with heldMarker := false }

/-- R178, R183, R188: main power lost, backup supply lost and reset pin asserted: retained state
stands and so does the clock, the port is IDLE and the queue empty (when it empties is the model's
choice, log 8; that main power lost ends the hold of the reset pin is its choice too, log 9); the
validity mark is lost only while main power is off. -/
def Obligations.LossOfPowerKeepsRetainedState : Prop :=
  ∀ s : State,
    (s.device.mainPower = true →
      ∃ t, exec .mainPowerLoss s = .next t ∧ sameRetained s t ∧ t.port = ⟨.idle, []⟩ ∧
        t.queue = IntakeQueue.empty ∧ t.clock = { s.clock with markerWaiting := false } ∧
        t.device = { s.device with mainPower := false, resetHeld := false } ∧
        t.pending = s.pending) ∧
    (s.device.mainPower = true → s.device.resetHeld = false →
      ∃ t, exec .resetPinAsserted s = .next t ∧ sameRetained s t ∧ t.port = ⟨.idle, []⟩ ∧
        t.queue = IntakeQueue.empty ∧ t.clock = { s.clock with markerWaiting := false } ∧
        t.device = { s.device with resetHeld := true } ∧
        t.pending = s.pending) ∧
    (s.device.mainPower = false →
      exec .backupSupplyLoss s =
        .next { s with device := { s.device with retentionValid := false } }) ∧
    (s.device.mainPower = true → exec .backupSupplyLoss s = .next s)

/-- R21: a disturbance changes the stored contract part and check code of an occupied slot and
nothing else; on a VACANT slot it is no event (the model's choice, log 22). -/
def Obligations.DisturbanceChangesTheStoredContract : Prop :=
  ∀ (i : Fin 32) (c : ContractImage) (code : Half) (s : State),
    (s.slots[i].state ≠ .vacant →
      exec (.storageDisturbance i c code) s =
        .next { s with
          slots := s.slots.set i { s.slots[i] with contract := c, checkCode := code } }) ∧
    (s.slots[i].state = .vacant → exec (.storageDisturbance i c code) s = .next s)

/-- R189: ENGINE CLEAR is refused while the sweep runs, and otherwise clears the intake side (the
was-silent flag of an UNREGISTERED channel is the model's reading, log 10). -/
def Obligations.EngineClearRestartsTheIntakeSide : Prop :=
  ∀ s : State, s.accepts .engineClear = true →
    (s.sweep.running = true →
      exec .engineClear s = .next (answer (s, ⟨.sweepActive, []⟩))) ∧
    (s.sweep.running = false →
      ∃ t, exec .engineClear s =
          .next (answer (t, ⟨.ok,
            [u8 s.queue.entries.length, flagByte s.queue.marker.isSome]⟩)) ∧
        t.queue = ⟨[], none, false⟩ ∧ t.clock = { s.clock with markerWaiting := false } ∧
        t.links = Vector.replicate 4 (Link.afterReset s.holdTime) ∧
        t.attention.mask = s.attention.mask ∧
        (∀ p, p ∈ t.attention.pendingSet ↔
          ∃ k : Fin 16, s.channels[k].state = .live ∧ p = ⟨.channelSilent, k.val⟩) ∧
        (∀ k : Fin 16, t.channels[k] =
          { restartedChannel s.channels[k] with
            lastSecond := s.channels[k].lastSecond,
            implausibleRun := s.channels[k].implausibleRun }) ∧
        t.device = { s.device with resetCause := .engineClear } ∧
        t.sweep = { s.sweep with nextSlot := 32, heldMarker := false } ∧
        t.slots = s.slots ∧ t.directory = s.directory ∧ t.tariff = s.tariff ∧
        t.holdTime = s.holdTime ∧ t.port = s.port ∧ t.pending = s.pending)

/-! ## Billing clock -/

/-- The state once the clock has been set (R38 steps 1 to 3). -/
def Sys2Proof.Machine.clockSet (t : CalTime) (source : SecondSource) (s : State) : State :=
  { s with clock := { s.clock with
      time := t, dayOfWeek := t.date.dayOfWeek, trust := true, source := source,
      gapHalves := 0, phaseHalves := 0 } }

/-- R37, R38: SET CLOCK is refused for a time that is not real or a source that is neither, makes no
boundary inside the subinterval, and one irregular boundary outside it. -/
def Obligations.SetClockFollowsTheSubinterval : Prop :=
  ∀ (time : TimeImage) (source : Byte) (s : State),
    s.accepts (.setClock time source) = true →
    ((calTimeOf time).valid = false ∨ sourceOf source = none →
      exec (.setClock time source) s = .next (answer (s, ⟨.badOperand, []⟩))) ∧
    (∀ src, (calTimeOf time).valid = true → sourceOf source = some src →
      (sameSubinterval s.clock.subinterval s.clock.time (calTimeOf time) = true →
        exec (.setClock time source) s =
          .next (answer (clockSet (calTimeOf time) src s,
            ⟨.ok, wordBytes s.clock.boundaryNumber ++ [1, 0]⟩))) ∧
      (sameSubinterval s.clock.subinterval s.clock.time (calTimeOf time) = false →
        exec (.setClock time source) s =
          .next (answer
            (((clockSet (calTimeOf time) src s).latch .clockIrregular 0).makeBoundary
              (calTimeOf time) .irregular,
            ⟨.ok, wordBytes (s.clock.boundaryNumber + 1) ++ [1, 1]⟩))))

/-- R40: the checks of SET SUBINTERVAL in their order, and its effect. -/
def Obligations.SetSubintervalWithNoAccountOpen : Prop :=
  ∀ (length : Half) (s : State), s.accepts (.setSubinterval length) = true →
    exec (.setSubinterval length) s =
      .next (answer
        (if length.toNat ∉ [60, 120, 180, 300, 600, 900, 1800] then (s, ⟨.badOperand, []⟩)
        else if ∃ i : Fin 32, s.slots[i].state.counted = true then (s, ⟨.inUse, []⟩)
        else if ∃ (k : Fin 8) (p : Schedule), s.tariff.schedules[k] = some p ∧
            ∃ q ∈ p.weekday ++ p.saturday ++ p.sunday ++ p.holiday,
              60 * q.minute % length.toNat ≠ 0 then (s, ⟨.badSchedule, []⟩)
        else ({ s with clock := { s.clock with subinterval := length.toNat } }, ⟨.ok, []⟩)))

/-- The clock one second on, with the count of R31. -/
def Sys2Proof.Machine.secondLater (c : Clock) : Clock :=
  { c with
    time := c.time.next
    dayOfWeek := if c.time.next.date = c.time.date then c.dayOfWeek
      else c.time.next.date.dayOfWeek
    trust := c.trust && decide (c.time ≠ CalTime.last)
    monotonic := c.monotonic + 1 }

/-- What follows a second: nothing, a regular boundary, or at the calendar wrap an irregular one. -/
def Sys2Proof.Machine.afterSecond (old : CalTime) (s : State) : State :=
  if old = CalTime.last then (s.latch .clockIrregular 0).makeBoundary s.clock.time .irregular
  else if s.clock.time.timeOfDay % s.clock.subinterval = 0 then
    s.makeBoundary s.clock.time .regular
  else s

/-- R27 to R31, R42, R188: each kind of second advance in an awake part, in an outage, and while the
reset pin is held; an edge is ignored while the source is INTERNAL. That the monotonic count stands in
an outage is the model's choice (log 8), and the half-second phase its count (log 17). -/
def Obligations.SecondAdvances : Prop :=
  ∀ s : State,
    (s.awake = true → s.clock.source = .pulse →
      exec .secondPulseEdge s =
        .next (afterSecond s.clock.time
          { s with clock := { secondLater s.clock with gapHalves := 0 } })) ∧
    (s.clock.source = .internal → exec .secondPulseEdge s = .next s) ∧
    (s.awake = true → s.clock.source = .internal →
      exec .internalSecond s =
        .next (afterSecond s.clock.time
          { s with clock := { secondLater s.clock with phaseHalves := 0 } })) ∧
    (s.device.mainPower = false → s.device.retentionValid = true →
      exec .outageSecondAdvance s =
        .next { s with clock :=
          { secondLater s.clock with monotonic := s.clock.monotonic, phaseHalves := 0 } }) ∧
    (s.device.mainPower = true → s.device.resetHeld = true →
      (s.clock.source = .pulse →
        exec .secondPulseEdge s =
          .next { s with clock := { secondLater s.clock with gapHalves := 0 } }) ∧
      (s.clock.source = .internal →
        exec .internalSecond s =
          .next { s with clock := { secondLater s.clock with phaseHalves := 0 } }))

/-- One second advance with what follows it (R27, R28, R31). -/
def Sys2Proof.Machine.secondMade (s : State) : State :=
  afterSecond s.clock.time { s with clock := secondLater s.clock }

/-- The clock as the fallback to INTERNAL begins (R29 step 1, R30). -/
def Sys2Proof.Machine.fallenBack (c : Clock) : Clock :=
  { c with source := .internal, gapHalves := 0, phaseHalves := 0 }

/-- R29: at pulse loss the source becomes INTERNAL, three seconds are made in succession, each with
the boundary that falls on it, and CLOCK_IRREGULAR is latched. R188: while the reset pin is held the
seconds make no boundary (that nothing is latched then is the model's reading, log 20). -/
def Obligations.PulseLossFallsBack : Prop :=
  ∀ s : State, s.clock.source = .pulse →
    (s.awake = true →
      ∃ t, exec .pulseLossFallback s = .next t ∧
        t = State.latch .clockIrregular 0 (secondMade (secondMade (secondMade
          { s with clock := fallenBack s.clock }))) ∧
        t.clock.source = .internal ∧ t.clock.time = s.clock.time.next.next.next ∧
        t.clock.monotonic = s.clock.monotonic + 3 ∧ t.clock.gapHalves = 0 ∧
        ⟨.clockIrregular, 0⟩ ∈ t.attention.pendingSet ∧
        t.slots = s.slots ∧ t.directory = s.directory ∧ t.tariff = s.tariff ∧
        t.channels = s.channels ∧ t.queue.entries = s.queue.entries ∧
        t.holdTime = s.holdTime ∧ t.port = s.port ∧ t.device = s.device) ∧
    (s.device.mainPower = true → s.device.resetHeld = true →
      exec .pulseLossFallback s =
        .next { s with
          clock := secondLater (secondLater (secondLater (fallenBack s.clock))) })

/-- R33 to R35: making a boundary: the number rises by one, the time is recorded, a marker is placed
at the tail or the waiting one is merged and becomes IRREGULAR. -/
def Obligations.BoundaryPlacesOrMergesTheMarker : Prop :=
  ∀ (t : CalTime) (kind : BoundaryKind) (s : State),
    let u := s.makeBoundary t kind
    u.clock = { s.clock with
      boundaryNumber := s.clock.boundaryNumber + 1, lastBoundary := t, markerWaiting := true } ∧
    u.queue.entries = s.queue.entries ∧ u.queue.congested = s.queue.congested ∧
    (s.clock.markerWaiting = false →
      u.queue.marker = some ⟨⟨s.clock.boundaryNumber + 1, t, kind⟩, s.queue.entries.length⟩) ∧
    (∀ q, s.clock.markerWaiting = true → s.queue.marker = some q →
      u.queue.marker = some ⟨⟨s.clock.boundaryNumber + 1, t, .irregular⟩, q.position⟩ ∧
      ⟨.clockIrregular, 0⟩ ∈ u.attention.pendingSet) ∧
    (s.clock.markerWaiting = false → s.queue.entries = [] → s.sweep.running = true →
      u.sweep.heldMarker = true ∧ ⟨.sweepLate, 0⟩ ∈ u.attention.pendingSet) ∧
    (∀ n : Fin 4, (s.links[n].transmitter = .idle ∧ s.links[n].waitingControl = none →
        u.links[n].transmitter = .sendingTime ⟨t, (s.clock.boundaryNumber + 1).setWidth 8⟩) ∧
      (s.links[n].transmitter ≠ .idle →
        u.links[n] = { s.links[n] with
          waitingTime := some ⟨t, (s.clock.boundaryNumber + 1).setWidth 8⟩ })) ∧
    u.slots = s.slots ∧ u.directory = s.directory ∧ u.tariff = s.tariff ∧
    u.channels = s.channels ∧ u.port = s.port ∧ u.device = s.device ∧ u.holdTime = s.holdTime ∧
    u.pending = s.pending

/-! ## Tariff table -/

/-- The bytes of a day program as carried: its point count, then minute and period of each point. -/
def Sys2Proof.Machine.carriedProgram (points : List (Half × Byte)) : List Byte :=
  u8 points.length :: points.flatMap fun p => halfBytes p.1 ++ [p.2]

/-- The bytes LOAD SCHEDULE carries after the slot number (R51). -/
def Sys2Proof.Machine.carriedSchedule (attributes : Vector Byte 8)
    (programs : Vector (List (Half × Byte)) 4) : List Byte :=
  attributes.toList ++ programs.toList.flatMap carriedProgram

/-- R51 step 2 on one switch point of a day program. -/
def Sys2Proof.Machine.pointPasses (length : Nat) (points : List (Half × Byte))
    (i : Fin points.length) : Prop :=
  (i.val = 0 → points[i].1 = 0) ∧
  (∀ j : Fin points.length, j.val + 1 = i.val → points[j].1.toNat < points[i].1.toNat) ∧
  points[i].1.toNat ≤ 1439 ∧ points[i].2.toNat ≤ 3 ∧ 60 * points[i].1.toNat % length = 0

/-- R51 step 2 on one day program. -/
def Sys2Proof.Machine.programPasses (length : Nat) (points : List (Half × Byte)) : Prop :=
  1 ≤ points.length ∧ points.length ≤ 8 ∧ ∀ i, pointPasses length points i

/-- The day program stored for the points carried. -/
def Sys2Proof.Machine.programCarried (points : List (Half × Byte)) : List SwitchPoint :=
  points.map fun p => ⟨p.1.toNat, Fin.ofNat 4 p.2.toNat⟩

/-- The schedule stored for the bytes carried. -/
def Sys2Proof.Machine.scheduleCarried (attributes : Vector Byte 8)
    (programs : Vector (List (Half × Byte)) 4) : Schedule :=
  { periods := Vector.ofFn fun k : Fin 4 =>
      ⟨attributes[2 * k.val] == 1, attributes[2 * k.val + 1] == 1⟩
    weekday := programCarried programs[0]
    saturday := programCarried programs[1]
    sunday := programCarried programs[2]
    holiday := programCarried programs[3] }

/-- The date of three bytes carried: year minus 2000, month, day. -/
def Sys2Proof.Machine.dateCarried (d : Byte × Byte × Byte) : Date :=
  ⟨d.1.toNat, d.2.1.toNat, d.2.2.toNat⟩

/-- R53 step 1 on the dates carried: real dates, each later than the one before. -/
def Sys2Proof.Machine.datesPass (dates : List (Byte × Byte × Byte)) : Prop :=
  (∀ d ∈ dates, (dateCarried d).valid = true) ∧
  (dates.map dateCarried).Pairwise fun a b => a.key < b.key

/-- R51 to R54: the checks of LOAD SCHEDULE and LOAD HOLIDAYS in their order, with what a BAD_SCHEDULE
names; operands that pass are refused while a sweep runs and otherwise replace the contents whole. -/
def Obligations.LoadsReplaceTheTariffWhole : Prop :=
  (∀ (slot : Byte) (body : List Byte) (s : State),
    s.accepts (.loadSchedule slot body) = true →
    (7 < slot.toNat ∨
        (∀ (attributes : Vector Byte 8) (programs : Vector (List (Half × Byte)) 4),
          (∀ d : Fin 4, programs[d].length ≤ 255) →
          body ≠ carriedSchedule attributes programs) →
      exec (.loadSchedule slot body) s = .next (answer (s, ⟨.badOperand, []⟩))) ∧
    (∀ (k : Fin 8) (attributes : Vector Byte 8) (programs : Vector (List (Half × Byte)) 4),
      slot.toNat = k.val → body = carriedSchedule attributes programs →
      (∀ d : Fin 4, programs[d].length ≤ 255) →
      (∀ i : Fin 8, (∀ j : Fin 8, j < i → attributes[j] = 0 ∨ attributes[j] = 1) →
        ¬(attributes[i] = 0 ∨ attributes[i] = 1) →
        exec (.loadSchedule slot body) s =
          .next (answer (s,
            ⟨.badSchedule, [0, u8 (i.val / 2), u8 (i.val % 2 + 1)]⟩))) ∧
      ((∀ i : Fin 8, attributes[i] = 0 ∨ attributes[i] = 1) →
        (∀ d : Fin 4,
          (∀ c : Fin 4, c < d → programPasses s.clock.subinterval programs[c]) →
          (programs[d].length = 0 ∨ 8 < programs[d].length →
            exec (.loadSchedule slot body) s =
              .next (answer (s, ⟨.badSchedule, [1, u8 d.val, 0]⟩))) ∧
          (∀ i : Fin programs[d].length, programs[d].length ≤ 8 →
            (∀ j, j < i → pointPasses s.clock.subinterval programs[d] j) →
            ¬pointPasses s.clock.subinterval programs[d] i →
            exec (.loadSchedule slot body) s =
              .next (answer (s, ⟨.badSchedule, [1, u8 d.val, u8 (i.val + 1)]⟩)))) ∧
        ((∀ d : Fin 4, programPasses s.clock.subinterval programs[d]) →
          (s.sweep.running = true →
            exec (.loadSchedule slot body) s =
              .next (answer (s, ⟨.sweepActive, []⟩))) ∧
          (s.sweep.running = false →
            exec (.loadSchedule slot body) s =
              .next (answer
                ({ s with tariff := { s.tariff with
                    schedules :=
                      s.tariff.schedules.set k (some (scheduleCarried attributes programs)) } },
                  ⟨.ok, [flagByte s.tariff.schedules[k].isSome]⟩))))))) ∧
  (∀ (count : Byte) (body : List Byte) (s : State),
    s.accepts (.loadHolidays count body) = true →
    (24 < count.toNat ∨ body.length ≠ 3 * count.toNat →
      exec (.loadHolidays count body) s = .next (answer (s, ⟨.badOperand, []⟩))) ∧
    (∀ dates : List (Byte × Byte × Byte), count.toNat ≤ 24 → dates.length = count.toNat →
      body = dates.flatMap (fun d => [d.1, d.2.1, d.2.2]) →
      (¬datesPass dates →
        exec (.loadHolidays count body) s = .next (answer (s, ⟨.badOperand, []⟩))) ∧
      (datesPass dates →
        (s.sweep.running = true →
          exec (.loadHolidays count body) s = .next (answer (s, ⟨.sweepActive, []⟩))) ∧
        (s.sweep.running = false →
          exec (.loadHolidays count body) s =
            .next (answer
              ({ s with tariff := { s.tariff with holidays := dates.map dateCarried } },
                ⟨.ok, []⟩))))))

/-- The bytes of a day program: point count, then minute and period of each point. -/
def Sys2Proof.Machine.pointsBytes (points : List SwitchPoint) : List Byte :=
  u8 points.length ::
    points.flatMap fun p => halfBytes (BitVec.ofNat 16 p.minute) ++ [u8 p.period.val]

/-- R55: READ SCHEDULE (that an EMPTY slot is answered with its state byte alone: log 12). -/
def Obligations.ReadScheduleReportsTheSlot : Prop :=
  ∀ (slot : Byte) (s : State), s.accepts (.readSchedule slot) = true →
    (7 < slot.toNat → exec (.readSchedule slot) s = .next (answer (s, ⟨.badOperand, []⟩))) ∧
    (∀ h : slot.toNat < 8,
      (s.tariff.schedules[slot.toNat] = none →
        exec (.readSchedule slot) s = .next (answer (s, ⟨.ok, [0]⟩))) ∧
      (∀ p, s.tariff.schedules[slot.toNat] = some p →
        exec (.readSchedule slot) s =
          .next (answer (s, ⟨.ok,
            1 :: (p.periods.toList.flatMap
                (fun a => [flagByte a.demandChargeable, flagByte a.leadingPenalised]) ++
              pointsBytes p.weekday ++ pointsBytes p.saturday ++ pointsBytes p.sunday ++
              pointsBytes p.holiday)⟩))))

/-- R56: READ HOLIDAYS. -/
def Obligations.ReadHolidaysReportsTheList : Prop :=
  ∀ s : State, s.accepts .readHolidays = true →
    holidaysSound s.tariff.holidays = true →
    s.tariff.holidays.length ≤ 24 ∧
    s.tariff.holidays.Pairwise (fun a b => a.key < b.key) ∧
    exec .readHolidays s =
      .next (answer (s, ⟨.ok,
        u8 s.tariff.holidays.length ::
          s.tariff.holidays.flatMap fun d => [u8 d.year, u8 d.month, u8 d.day]⟩))

/-- R47, R48: the day program of a date, and the point with the greatest minute at or before the
time of day. -/
def Obligations.PeriodLookupFindsThePointInForce : Prop :=
  (∀ (holidays : List Date) (d : Date) (p : Schedule),
    (d ∈ holidays → p.program holidays d = p.holiday) ∧
    (d ∉ holidays →
      (d.dayOfWeek = .saturday → p.program holidays d = p.saturday) ∧
      (d.dayOfWeek = .sunday → p.program holidays d = p.sunday) ∧
      (d.dayOfWeek ≠ .saturday → d.dayOfWeek ≠ .sunday →
        p.program holidays d = p.weekday))) ∧
  (∀ (length : Nat) (schedule : Byte) (t : CalTime) (s : State) (p : Schedule),
    s.scheduleSlot schedule.toNat = some (some p) → scheduleSound length p = true →
    ∃ q ∈ p.program s.tariff.holidays t.date,
      s.lookupPeriod schedule t = q.period ∧ 60 * q.minute ≤ t.timeOfDay ∧
      ∀ r ∈ p.program s.tariff.holidays t.date,
        60 * r.minute ≤ t.timeOfDay → r.minute ≤ q.minute)

/-! ## Metering links -/

/-- R75, R76: SET HOLD TIME takes 2 to 30 s and refuses the rest; READ LINKS reports the links and the
queue (the marker as one optional item, zeros where it is absent: log 12) and then clears the two
marks of all four links. -/
def Obligations.HoldTimeAndReadLinks : Prop :=
  (∀ (seconds : Byte) (s : State), s.accepts (.setHoldTime seconds) = true →
    exec (.setHoldTime seconds) s =
      .next (answer
        (if 2 ≤ seconds.toNat ∧ seconds.toNat ≤ 30 then
          ({ s with holdTime := seconds.toNat }, ⟨.ok, []⟩)
        else (s, ⟨.badOperand, []⟩)))) ∧
  (∀ s : State, s.accepts .readLinks = true →
    exec .readLinks s =
      .next (answer
        ({ s with
            links := Vector.ofFn fun n : Fin 4 =>
              { s.links[n] with errorMark := false, overrunMark := false } },
          ⟨.ok,
            s.links.toList.flatMap (fun l =>
              [l.breakState.code, l.flow.code, controlCode l.waitingControl,
                flagByte l.waitingTime.isSome, l.transmitter.code, u8 l.lastHold,
                flagByte l.errorMark, flagByte l.overrunMark]) ++
            [u8 s.queue.entries.length, flagByte s.queue.congested] ++
            (match s.queue.marker with
            | none => List.replicate 7 0
            | some m =>
              1 :: u8 m.position :: wordBytes m.marker.number ++ [m.marker.kind.code])⟩)))

/-- The link record once a frame in progress has ended (R59). -/
def Sys2Proof.Machine.endedLink (l : Link) : Link :=
  { l with receive := .waiting, collected := [], charError := false }

/-- R59: how the receiver assembles characters; FRAME_RECEIVED is its characters one after another
(the model's reading of that row, log 6), and the 25th ends the frame. -/
def Obligations.CharactersAreAssembled : Prop :=
  (∀ (n : Fin 4) (c d : LineChar) (rest : List LineChar) (s t : State),
    exec (.frameReceived n c []) s = exec (.characterReceived n c.char c.goodStop) s ∧
    (exec (.characterReceived n c.char c.goodStop) s = .next t →
      exec (.frameReceived n c (d :: rest)) s = exec (.frameReceived n d rest) t)) ∧
  (∀ (n : Fin 4) (char : Byte) (good : Bool) (s : State), s.awake = true →
    (s.links[n].receive = .waiting →
      exec (.characterReceived n char true) s =
        .next { s with
          links := s.links.set n { s.links[n] with
            receive := .collecting, collected := [char], charError := false } } ∧
      exec (.characterReceived n char false) s = .next s) ∧
    (s.links[n].receive = .collecting →
      (s.links[n].collected.length + 1 < 25 →
        exec (.characterReceived n char good) s =
          .next { s with
            links := s.links.set n { s.links[n] with
              collected := s.links[n].collected ++ [char],
              charError := s.links[n].charError || !good } }) ∧
      (s.links[n].collected.length + 1 = 25 →
        ∃ t, exec (.characterReceived n char good) s = .next t ∧
          t.links[n].receive = .waiting ∧ t.links[n].collected = [] ∧
          t.links[n].charError = false)) ∧
    (s.links[n].receive = .spacing →
      exec (.characterReceived n char good) s = .next s ∧
      exec (.lineReturnsToMarking n) s =
        .next { s with
          links := s.links.set n { s.links[n] with receive := .waiting } }))

/-- R59: the characters c and rest end a frame f of 25 characters on a link, with this character
error. -/
def Sys2Proof.Machine.frameEnds (l : Link) (c : LineChar) (rest : List LineChar)
    (f : List Byte) (bad : Bool) : Prop :=
  f.length = 25 ∧
  ((l.receive = .collecting ∧ f = l.collected ++ (c :: rest).map LineChar.char ∧
      bad = (l.charError || (c :: rest).any fun d => !d.goodStop)) ∨
    (l.receive = .waiting ∧ c.goodStop = true ∧ f = (c :: rest).map LineChar.char ∧
      bad = rest.any fun d => !d.goodStop))

/-- R59, R60: which frames fail a check and are discarded with LINK_ERROR; a frame laid out as a TOTALS
frame passes and carries its contents; a bad character in WAITING begins no frame. -/
def Obligations.BadFramesAreDiscarded : Prop :=
  (∀ e : FrameEntry, e.bytes.length = 25 ∧ checkFrame e.link e.bytes false = some e) ∧
  (∀ (n : Fin 4) (f : List Byte), checkFrame n f true = none) ∧
  (∀ (n : Fin 4) (f : List Byte), f.length ≠ 25 → checkFrame n f false = none) ∧
  (∀ (n : Fin 4) (kind sub : Byte) (rest : List Byte), kind ≠ 0xA1 ∨ 3 < sub.toNat →
    checkFrame n (kind :: sub :: rest) false = none) ∧
  (∀ (n : Fin 4) (f : List Byte) (hi lo : Byte), f.length = 23 → hi ++ lo ≠ crc16 f →
    checkFrame n (f ++ [hi, lo]) false = none) ∧
  (∀ (n : Fin 4) (c : LineChar) (rest : List LineChar) (f : List Byte) (bad : Bool) (s : State),
    s.awake = true → frameEnds s.links[n] c rest f bad → checkFrame n f bad = none →
    exec (.frameReceived n c rest) s =
      .next (State.latch .linkError n { s with
        links := s.links.set n { endedLink s.links[n] with errorMark := true } })) ∧
  (∀ (n : Fin 4) (c d : LineChar) (rest : List LineChar) (s : State), s.awake = true →
    s.links[n].receive = .waiting → c.goodStop = false →
    exec (.frameReceived n c []) s = .next s ∧
    exec (.frameReceived n c (d :: rest)) s = exec (.frameReceived n d rest) s) ∧
  (∀ (n : Fin 4) (s : State), s.awake = true → s.links[n].receive = .collecting →
    s.links[n].collected.length < 25 →
    exec (.idleGap n) s =
      .next (State.latch .linkError n { s with
        links := s.links.set n { endedLink s.links[n] with errorMark := true } }))

/-- A control frame asked for: it begins on an IDLE transmitter and waits on a busy one, in place of
one that waits already (R70). -/
def Sys2Proof.Machine.controlAsked (holdTime : Nat) (f : ControlFrame) (flow : FlowState)
    (l : Link) : Link :=
  if l.transmitter = .idle then
    { l with flow := flow, waitingControl := none,
             transmitter := match f with
               | .hold => .sendingHold holdTime
               | .release => .sendingRelease }
  else { l with flow := flow, waitingControl := some f }

/-- R74: the channels once a link has left FLOWING. -/
def Sys2Proof.Machine.frozenOn (n : Fin 4) (s : State) (k : Fin 16) : Channel :=
  if linkOf k = n ∧ s.channels[k].state ≠ .unregistered then
    { s.channels[k] with timerMode := .frozen }
  else s.channels[k]

/-- R62, R64, R66: a good frame leaves BROKEN and is entered at the tail below 64 entries; the entry
that makes 48 sets the congestion flag and asks every link for a HOLD, where the timers of a link that
leaves FLOWING are FROZEN with their remaining time (R74); at 64 it is dropped. R68: what
a hold request does in each flow state. -/
def Obligations.GoodFramesAreEnteredOrDropped : Prop :=
  (∀ (n : Fin 4) (c : LineChar) (rest : List LineChar) (e : FrameEntry) (s : State),
    s.awake = true → e.link = n → frameEnds s.links[n] c rest e.bytes false →
    let good := { endedLink s.links[n] with breakState := .normal }
    (s.queue.entries.length < 64 →
      (s.queue.entries.length ≠ 47 ∨ s.queue.congested = true) →
      exec (.frameReceived n c rest) s =
        .next { s with
          links := s.links.set n good,
          queue := { s.queue with entries := s.queue.entries ++ [e] } }) ∧
    (s.queue.entries.length = 47 → s.queue.congested = false →
      ∃ t, exec (.frameReceived n c rest) s = .next t ∧
        t.queue = { s.queue with entries := s.queue.entries ++ [e], congested := true } ∧
        (∀ m : Fin 4, t.links[m] =
          Link.holdRequest s.holdTime (if m = n then good else s.links[m])) ∧
        (∀ m : Fin 4, s.links[m].flow = .flowing → t.links[m].flow = .holdPending) ∧
        (∀ k : Fin 16, t.channels[k] =
          if s.links[linkOf k].flow = .flowing then frozenOn (linkOf k) s k
          else s.channels[k]) ∧
        t.directory = s.directory ∧ t.tariff = s.tariff ∧ t.device = s.device ∧
        t.holdTime = s.holdTime ∧ t.pending = s.pending ∧ t.slots = s.slots ∧ t.clock = s.clock ∧ t.attention = s.attention ∧
        t.sweep = s.sweep ∧ t.port = s.port) ∧
    (64 ≤ s.queue.entries.length →
      exec (.frameReceived n c rest) s =
        .next (State.latch .queueOverrun n { s with
          links := s.links.set n { good with overrunMark := true } }))) ∧
  (∀ (h : Nat) (l : Link),
    (l.flow = .flowing → l.holdRequest h = controlAsked h .hold .holdPending l) ∧
    (l.flow = .holdPending ∨ l.flow = .held → l.holdRequest h = l) ∧
    (l.flow = .releasePending → l.waitingControl = some .release →
      (∀ carried, l.transmitter = .sendingHold carried →
        l.holdRequest h = { l with waitingControl := none, flow := .holdPending }) ∧
      ((∀ carried, l.transmitter ≠ .sendingHold carried) →
        (∀ halves, l.holdTimer = some halves → l.lastHold ≤ halves →
          l.holdRequest h = controlAsked h .hold .held l) ∧
        ((∀ halves, l.holdTimer = some halves → halves < l.lastHold) →
          l.holdRequest h = { l with waitingControl := none, flow := .held }))) ∧
    (l.flow = .releasePending → l.waitingControl ≠ some .release →
      l.holdRequest h = controlAsked h .hold .holdPending l))

/-- R61, R88: a break takes the receiver to SPACING, breaks the link and silences its LIVE channels
at once; one spell of spacing is one break. -/
def Obligations.BreakSilencesTheLink : Prop :=
  ∀ (n : Fin 4) (s : State), s.awake = true →
    (s.links[n].receive ≠ .spacing →
      ∃ t, exec (.lineBreak n) s = .next t ∧
        t.links = s.links.set n { s.links[n] with
          receive := .spacing, collected := [], charError := false, breakState := .broken } ∧
        (∀ k : Fin 16, t.channels[k] =
          if linkOf k = n ∧ s.channels[k].state = .live then
            { s.channels[k] with state := .silent, wasSilent := true }
          else s.channels[k]) ∧
        (∀ k : Fin 16, linkOf k = n → s.channels[k].state = .live →
          ⟨.channelSilent, k.val⟩ ∈ t.attention.pendingSet) ∧
        ⟨.linkBreak, n.val⟩ ∈ t.attention.pendingSet ∧
        (∀ p ∈ s.attention.pendingSet, p ∈ t.attention.pendingSet) ∧
        t.queue = s.queue ∧ t.slots = s.slots ∧ t.directory = s.directory ∧
        t.clock = s.clock ∧ t.sweep = s.sweep ∧ t.port = s.port ∧
        t.attention.mask = s.attention.mask) ∧
    (s.links[n].receive = .spacing → exec (.lineBreak n) s = .next s)

/-- R74: the channels once a link has returned to FLOWING. -/
def Sys2Proof.Machine.reloadedOn (n : Fin 4) (s : State) (k : Fin 16) : Channel :=
  if linkOf k = n ∧ s.channels[k].state ≠ .unregistered then
    { s.channels[k] with
      timerHalves := 2 * s.channels[k].timeout, timerMode := .running }
  else s.channels[k]

/-- R70: the link once a completed frame has made way: the waiting control frame begins, or else the
waiting TIME frame, or else the transmitter is IDLE. -/
def Sys2Proof.Machine.nextBegun (holdTime : Nat) (l : Link) : Link :=
  match l.waitingControl, l.waitingTime with
  | some .hold, _ => { l with waitingControl := none, transmitter := .sendingHold holdTime }
  | some .release, _ => { l with waitingControl := none, transmitter := .sendingRelease }
  | none, some r => { l with waitingTime := none, transmitter := .sendingTime r }
  | none, none => { l with transmitter := .idle }

/-- R70, R71, R74: the completion of each kind of frame in each flow state. That a completion with the
transmitter IDLE changes nothing is the model's choice (log 1). -/
def Obligations.TransmissionCompletes : Prop :=
  ∀ (n : Fin 4) (s : State), s.awake = true →
    let l := s.links[n]
    let next := nextBegun s.holdTime l
    (l.transmitter = .idle → exec (.transmissionComplete n) s = .next s) ∧
    (∀ r, l.transmitter = .sendingTime r →
      exec (.transmissionComplete n) s = .next { s with links := s.links.set n next }) ∧
    (∀ h, l.transmitter = .sendingHold h →
      (l.flow = .holdPending ∨ l.flow = .held →
        exec (.transmissionComplete n) s =
          .next { s with
            links := s.links.set n
              { next with holdTimer := some 0, lastHold := h, flow := .held } }) ∧
      (l.flow = .flowing →
        exec (.transmissionComplete n) s =
          .next { s with
            links := s.links.set n
              { next with holdTimer := some 0, lastHold := h, flow := .held },
            channels := Vector.ofFn fun k : Fin 16 => frozenOn n s k }) ∧
      (l.flow = .releasePending →
        exec (.transmissionComplete n) s =
          .next { s with
            links := s.links.set n { next with holdTimer := some 0, lastHold := h } })) ∧
    (l.transmitter = .sendingRelease →
      (l.flow = .releasePending →
        exec (.transmissionComplete n) s =
          .next { s with
            links := s.links.set n { next with holdTimer := none, flow := .flowing },
            channels := Vector.ofFn fun k : Fin 16 => reloadedOn n s k }) ∧
      (l.flow ≠ .releasePending →
        exec (.transmissionComplete n) s =
          .next { s with links := s.links.set n { next with holdTimer := none } }))

/-- R72, R73, R74: at the refresh point of a HELD link of a congested queue with no control frame
waiting a refresh HOLD begins, or waits where the transmitter is busy; in any other case the point
passes; the expiry returns HELD and RELEASE_PENDING links to FLOWING. -/
def Obligations.RefreshAndExpiry : Prop :=
  ∀ (n : Fin 4) (h : Nat) (s : State), s.awake = true → s.links[n].holdTimer = some h →
    (h < s.links[n].lastHold →
      (s.links[n].flow = .held → s.queue.congested = true →
        s.links[n].waitingControl = none → s.links[n].transmitter = .idle →
        exec (.refreshPoint n) s =
          .next { s with
            links := s.links.set n { s.links[n] with
              holdTimer := some s.links[n].lastHold,
              transmitter := .sendingHold s.holdTime } }) ∧
      (s.links[n].flow = .held → s.queue.congested = true →
        s.links[n].waitingControl = none → s.links[n].transmitter ≠ .idle →
        exec (.refreshPoint n) s =
          .next { s with
            links := s.links.set n { s.links[n] with
              holdTimer := some s.links[n].lastHold, waitingControl := some .hold } }) ∧
      ((s.links[n].flow ≠ .held ∨ s.queue.congested = false ∨
          s.links[n].waitingControl ≠ none) →
        exec (.refreshPoint n) s =
          .next { s with
            links := s.links.set n
              { s.links[n] with holdTimer := some s.links[n].lastHold } })) ∧
    ((s.links[n].flow = .held ∨ s.links[n].flow = .releasePending) →
      exec (.holdExpiry n) s =
        .next { s with
          links := s.links.set n { s.links[n] with
            holdTimer := none, flow := .flowing, waitingControl := none },
          channels := Vector.ofFn fun k : Fin 16 => reloadedOn n s k }) ∧
    ((s.links[n].flow = .holdPending ∨ s.links[n].flow = .flowing) →
      exec (.holdExpiry n) s =
        .next { s with links := s.links.set n { s.links[n] with holdTimer := none } })

/-! ## Intake channels -/

/-- A presence timer reloaded (R80). -/
def Sys2Proof.Machine.withTimer (flowing : Bool) (c : Channel) : Channel :=
  { c with
    timerHalves := 2 * c.timeout, timerMode := if flowing then .running else .frozen }

/-- R98 to R101: REGISTER METER as a new registration and as a replacement, RELEASE METER and SET
CHANNEL POLICY, with every refusal (that a new registration makes the reference count 0 is read from R98's
words, log 28). -/
def Obligations.ChannelCommandsSetTheRecord : Prop :=
  (∀ (b : Byte) (identity : Quantity) (rated : Word) (s : State),
    s.accepts (.registerMeter b identity rated) = true →
    (15 < b.toNat ∨ identity = 0 ∨ rated = 0 →
      exec (.registerMeter b identity rated) s = .next (answer (s, ⟨.badOperand, []⟩))) ∧
    (∀ k : Fin 16, b.toNat = k.val → identity ≠ 0 → rated ≠ 0 →
      exec (.registerMeter b identity rated) s =
        .next (answer
          ({ s with
              channels := s.channels.set k
                (withTimer (s.flowing (linkOf k))
                  (if s.channels[k].state = .unregistered then
                    { s.channels[k] with
                      state := .awaiting, identity := some identity, ratedPower := some rated,
                      policy := .holdLast, timeout := 5, lastTotals := none,
                      lastSequence := none, lastSecond := none, implausibleRun := 0,
                      openWindow := Triple.same 0, openCatchUp := Triple.same 0,
                      openEstimated := false, reference := Triple.same 0,
                      credit := Triple.same 0, silenceSpannedSeal := false,
                      wasSilent := true, referenceCount := 0 }
                  else
                    { s.channels[k] with
                      state := .awaiting, identity := some identity, ratedPower := some rated,
                      lastTotals := none, lastSequence := none, lastSecond := none,
                      implausibleRun := 0, credit := Triple.same 0,
                      silenceSpannedSeal := false, wasSilent := true,
                      openEstimated := true })) },
            ⟨.ok, [s.channels[k].state.code]⟩)))) ∧
  (∀ (b : Byte) (s : State), s.accepts (.releaseMeter b) = true →
    (15 < b.toNat → exec (.releaseMeter b) s = .next (answer (s, ⟨.badOperand, []⟩))) ∧
    (∀ k : Fin 16, b.toNat = k.val →
      (s.channels[k].referenceCount ≠ 0 →
        exec (.releaseMeter b) s = .next (answer (s, ⟨.inUse, []⟩))) ∧
      (s.channels[k].referenceCount = 0 → s.channels[k].state = .unregistered →
        exec (.releaseMeter b) s = .next (answer (s, ⟨.ok, []⟩))) ∧
      (s.channels[k].referenceCount = 0 → s.channels[k].state ≠ .unregistered →
        exec (.releaseMeter b) s =
          .next (answer
            ({ s with
                channels := s.channels.set k
                  { Channel.cleared with
                    sealedWindow := s.channels[k].sealedWindow,
                    sealedCatchUp := s.channels[k].sealedCatchUp,
                    sealedEstimated := s.channels[k].sealedEstimated } },
              ⟨.ok, []⟩))))) ∧
  (∀ (b policy timeout : Byte) (rated : Word) (s : State),
    s.accepts (.setChannelPolicy b policy timeout rated) = true →
    (15 < b.toNat ∨ 1 < policy.toNat ∨ timeout.toNat < 2 ∨ 60 < timeout.toNat ∨ rated = 0 →
      exec (.setChannelPolicy b policy timeout rated) s =
        .next (answer (s, ⟨.badOperand, []⟩))) ∧
    (∀ (k : Fin 16) (q : Policy), b.toNat = k.val → policyOf policy = some q →
      2 ≤ timeout.toNat → timeout.toNat ≤ 60 → rated ≠ 0 →
      let c := { s.channels[k] with
        policy := q, timeout := timeout.toNat, ratedPower := some rated,
        credit := if s.channels[k].policy = .holdLast ∧ q = .defer then Triple.same 0
          else s.channels[k].credit }
      exec (.setChannelPolicy b policy timeout rated) s =
        .next (answer
          ({ s with
              channels := s.channels.set k
                (if c.state = .unregistered then c
                else withTimer (s.flowing (linkOf k)) c) },
            ⟨.ok, []⟩))))

/-- R39, R102, R127, R180: READ CLOCK, READ CHANNEL, READ SWEEP and READ IDENTITY report and change
nothing (log 12 for the layout and the widths R182 leaves open, log 17 for the remaining time, log 28 for a
reference count above 255). -/
def Obligations.ReadsOfClockChannelSweepAndIdentity : Prop :=
  (∀ s : State, s.accepts .readClock = true →
    exec .readClock s =
      .next (answer (s, ⟨.ok,
        calTimeBytes s.clock.time ++
          [s.clock.dayOfWeek.code, s.clock.source.code, flagByte s.clock.trust] ++
          halfBytes (BitVec.ofNat 16 s.clock.subinterval) ++ wordBytes s.clock.boundaryNumber ++
          calTimeBytes s.clock.lastBoundary ++ [flagByte s.clock.markerWaiting]⟩))) ∧
  (∀ (b : Byte) (s : State), s.accepts (.readChannel b) = true →
    (15 < b.toNat → exec (.readChannel b) s = .next (answer (s, ⟨.badOperand, []⟩))) ∧
    (∀ k : Fin 16, b.toNat = k.val →
      let c := s.channels[k]
      exec (.readChannel b) s =
        .next (answer (s, ⟨.ok,
          [c.state.code] ++ optionalBytes 6 (c.identity.map quantityBytes) ++
          [c.policy.code, u8 c.timeout] ++ optionalBytes 4 (c.ratedPower.map wordBytes) ++
          [c.timerMode.code, u8 ((c.timerHalves + 1) / 2)] ++
          optionalBytes 12 (c.lastTotals.map fun t =>
            wordBytes t.active ++ wordBytes t.lagging ++ wordBytes t.leading) ++
          optionalBytes 1 (c.lastSequence.map fun q => [q]) ++
          optionalBytes 4 (c.lastSecond.map fun m => wordBytes (s.clock.monotonic - m)) ++
          [u8 c.implausibleRun] ++
          tripleBytes c.openWindow ++ tripleBytes c.openCatchUp ++ [flagByte c.openEstimated] ++
          tripleBytes c.sealedWindow ++ tripleBytes c.sealedCatchUp ++
          [flagByte c.sealedEstimated] ++ tripleBytes c.reference ++ tripleBytes c.credit ++
          [flagByte c.silenceSpannedSeal, flagByte c.wasSilent, u8 c.referenceCount]⟩)))) ∧
  (∀ s : State, s.accepts .readSweep = true →
    exec .readSweep s =
      .next (answer (s, ⟨.ok,
        [flagByte s.sweep.running] ++ wordBytes s.sweep.b ++ calTimeBytes s.sweep.time ++
          [s.sweep.kind.code, u8 s.sweep.nextSlot, flagByte s.sweep.heldMarker]⟩))) ∧
  (∀ s : State, s.accepts .readIdentity = true →
    exec .readIdentity s =
      .next (answer (s, ⟨.ok,
        [0x0E, 0x7A, 0x0D, 0x32, 0x01, s.device.resetCause.code,
          flagByte s.device.retentionLost, u8 s.holdTime]⟩)))

/-- R80, R88: a presence timer expires. -/
def Obligations.PresenceTimerExpires : Prop :=
  ∀ (k : Fin 16) (s : State), s.awake = true →
    (s.channels[k].timerMode = .running → s.channels[k].state = .live →
      exec (.presenceTimerExpiry k) s =
        .next (State.latch .channelSilent k { s with
          channels := s.channels.set k { s.channels[k] with
            state := .silent, wasSilent := true, timerMode := .stopped,
            timerHalves := 0 } })) ∧
    (s.channels[k].timerMode = .running → s.channels[k].state ≠ .live →
      exec (.presenceTimerExpiry k) s =
        .next { s with
          channels := s.channels.set k { s.channels[k] with
            timerMode := .stopped, timerHalves := 0 } }) ∧
    (s.channels[k].timerMode ≠ .running → exec (.presenceTimerExpiry k) s = .next s)

/-- R65, R66, R108: the head entry leaves the queue and is judged for its channel; a marker behind it
comes one place nearer, and 16 entries end the congestion, where the timers of a link that becomes
FLOWING are reloaded (R74). R69: what a release request does in each flow state; for a HOLD that waits
behind a HOLD in transmission, FLOWING is the model's reading (log 11). -/
def Obligations.TakingAnEntry : Prop :=
  (∀ (e : FrameEntry) (rest : List FrameEntry) (s : State), s.awake = true →
    s.markerAtHead = false → s.queue.entries = e :: rest →
    ∃ t, exec .takeFrameEntry s = .next t ∧ t.queue.entries = rest ∧
      t.queue.marker = s.queue.marker.map (fun q => { q with position := q.position - 1 }) ∧
      t.queue.congested = (s.queue.congested && decide (rest.length ≠ 16)) ∧
      (∀ q, s.queue.marker = some q → q.position = 1 → s.sweep.running = true →
        t.sweep.heldMarker = true ∧ ⟨.sweepLate, 0⟩ ∈ t.attention.pendingSet) ∧
      ((rest.length ≠ 16 ∨ s.queue.congested = false) → t.links = s.links) ∧
      (rest.length = 16 → s.queue.congested = true →
        ∀ n : Fin 4, t.links[n] = Link.releaseRequest s.holdTime s.links[n]) ∧
      (let channels : Vector Channel 16 := Vector.ofFn fun k : Fin 16 =>
          if s.links[linkOf k].flow ≠ .flowing ∧ t.links[linkOf k].flow = .flowing then
            reloadedOn (linkOf k) s k
          else s.channels[k]
        let out := judgeFrame (decide (t.links[e.link].flow = .flowing)) s.clock.monotonic e
          channels[channelAt e.link e.subAddress]
        t.channels = channels.set (channelAt e.link e.subAddress) out.1 ∧
        (∀ k ∈ out.2, ⟨k, (channelAt e.link e.subAddress).val⟩ ∈ t.attention.pendingSet)) ∧
      t.slots = s.slots ∧ t.directory = s.directory ∧ t.clock = s.clock ∧ t.port = s.port ∧
      (∀ p ∈ s.attention.pendingSet, p ∈ t.attention.pendingSet)) ∧
  (∀ (h : Nat) (l : Link),
    (l.flow = .flowing ∨ l.flow = .releasePending → l.releaseRequest h = l) ∧
    (l.flow = .holdPending → l.waitingControl = some .hold →
      (l.transmitter = .sendingRelease →
        l.releaseRequest h = { l with waitingControl := none, flow := .releasePending }) ∧
      (l.transmitter ≠ .sendingRelease →
        l.releaseRequest h = { l with waitingControl := none, flow := .flowing })) ∧
    (l.flow = .holdPending → l.waitingControl ≠ some .hold →
      l.releaseRequest h = controlAsked h .release .releasePending l) ∧
    (l.flow = .held → l.releaseRequest h = controlAsked h .release .releasePending l))

/-- The three increments of a frame over the last totals p, modulo 2^32 (R84). -/
def Sys2Proof.Machine.incrementsOver (p : Triple Word) (e : FrameEntry) : Triple Nat :=
  ⟨(e.totals.active - p.active).toNat, (e.totals.lagging - p.lagging).toNat,
    (e.totals.leading - p.leading).toNat⟩

/-- R85: some increment is out of bounds for rated power w after e seconds. -/
def Sys2Proof.Machine.beyondBound (w elapsed : Nat) (d : Triple Nat) : Prop :=
  w * 2 * (elapsed + 1) < d.active * 3600 ∨ w * 2 * (elapsed + 1) < d.lagging * 3600 ∨
  w * 2 * (elapsed + 1) < d.leading * 3600

/-- The frame recorded as the last accepted one (R87). -/
def Sys2Proof.Machine.accepting (second : Word) (e : FrameEntry) (c : Channel) : Channel :=
  { c with
    lastTotals := some e.totals, lastSequence := some e.sequence, lastSecond := some second,
    implausibleRun := 0 }

/-- R81 to R91: the judgement of a frame in each state of its channel, the re-baseline and the resume
of a SILENT one included. -/
def Obligations.FramesAreJudgedInOrder : Prop :=
  ∀ (flowing : Bool) (second : Word) (e : FrameEntry) (c : Channel),
    let r := if flowing then withTimer true c else c
    (c.state = .unregistered → judgeFrame flowing second e c = (c, [])) ∧
    (c.state ≠ .unregistered → c.identity ≠ some e.identity →
      judgeFrame flowing second e c = (c, [.foreignMeter])) ∧
    (c.state = .awaiting → c.identity = some e.identity →
      judgeFrame flowing second e c = ({ accepting second e r with state := .live }, [])) ∧
    (∀ (q : Byte) (p : Triple Word) (w : Word),
      (c.state = .live ∨ c.state = .silent) → c.identity = some e.identity →
      c.lastSequence = some q → c.lastTotals = some p → c.ratedPower = some w →
      ((e.sequence - q = 0 ∨ 128 ≤ (e.sequence - q).toNat) →
        judgeFrame flowing second e c = (r, [])) ∧
      (∀ m, e.sequence - q ≠ 0 → (e.sequence - q).toNat < 128 → c.lastSecond = some m →
        beyondBound w.toNat (second - m).toNat (incrementsOver p e) →
        (c.implausibleRun < 2 →
          judgeFrame flowing second e c =
            ({ r with implausibleRun := c.implausibleRun + 1 }, [.implausible])) ∧
        (2 ≤ c.implausibleRun → c.state = .live →
          judgeFrame flowing second e c =
            ({ accepting second e r with openEstimated := true }, [.implausible])) ∧
        (2 ≤ c.implausibleRun → c.state = .silent →
          judgeFrame flowing second e c =
            ({ accepting second e r with
                state := .live, openEstimated := true, silenceSpannedSeal := false,
                credit := Triple.same 0 },
              if c.policy = .holdLast ∧ (0 < c.credit.active.toNat ∨
                  0 < c.credit.lagging.toNat ∨ 0 < c.credit.leading.toNat) then
                [.implausible, .channelResumed, .substitutionExcess]
              else [.implausible, .channelResumed]))) ∧
      (e.sequence - q ≠ 0 → (e.sequence - q).toNat < 128 →
        (∀ m, c.lastSecond = some m →
          ¬beyondBound w.toNat (second - m).toNat (incrementsOver p e)) →
        (c.state = .live →
          judgeFrame flowing second e c =
            ({ accepting second e r with
                openEstimated := c.openEstimated || e.sourceStatus.getLsbD 0,
                openWindow := addTriple c.openWindow (incrementsOver p e) }, [])) ∧
        (c.state = .silent → c.policy = .defer →
          judgeFrame flowing second e c =
            ({ accepting second e r with
                state := .live, silenceSpannedSeal := false, credit := Triple.same 0,
                openEstimated := c.openEstimated || e.sourceStatus.getLsbD 0,
                openCatchUp := if c.silenceSpannedSeal then
                    addTriple c.openCatchUp (incrementsOver p e) else c.openCatchUp,
                openWindow := if c.silenceSpannedSeal then c.openWindow
                  else addTriple c.openWindow (incrementsOver p e) },
              [.channelResumed])) ∧
        (c.state = .silent → c.policy = .holdLast →
          let d := incrementsOver p e
          judgeFrame flowing second e c =
            ({ accepting second e r with
                state := .live, silenceSpannedSeal := false, credit := Triple.same 0,
                openEstimated := c.openEstimated || e.sourceStatus.getLsbD 0,
                openWindow := addTriple c.openWindow
                  ⟨d.active - c.credit.active.toNat, d.lagging - c.credit.lagging.toNat,
                    d.leading - c.credit.leading.toNat⟩ },
              if d.active < c.credit.active.toNat ∨ d.lagging < c.credit.lagging.toNat ∨
                  d.leading < c.credit.leading.toNat then
                [.channelResumed, .substitutionExcess]
              else [.channelResumed]))))

/-- R93 to R96, R105, R106: the state t that taking the marker m makes of s: every channel is sealed by
its state and policy, and the sweep starts under the kind the gap decides. -/
def Sys2Proof.Machine.markerTaken (m : Marker) (s t : State) : Prop :=
  t.queue = { s.queue with marker := none } ∧
  t.clock = { s.clock with markerWaiting := false } ∧
  t.sweep = ⟨true, m.number, m.time,
    if m.number - s.sweep.b = 1 then m.kind else .irregular, 0, false⟩ ∧
  (∀ i : Fin 32, t.slots[i] =
    if 1 < (m.number - s.sweep.b).toNat ∧ s.slots[i].state.swept = true then
      { s.slots[i] with lastBoundary := m.number - 1 }
    else s.slots[i]) ∧
  (∀ k : Fin 16,
    let c := s.channels[k]
    let u := t.channels[k]
    let filled := c.openWindow.zip maxQuantity c.reference
    u.openWindow = Triple.same 0 ∧ u.openCatchUp = Triple.same 0 ∧
    u.openEstimated = false ∧
    u = { c with
      openWindow := u.openWindow, openCatchUp := u.openCatchUp,
      openEstimated := u.openEstimated, sealedWindow := u.sealedWindow,
      sealedCatchUp := u.sealedCatchUp, sealedEstimated := u.sealedEstimated,
      reference := u.reference, credit := u.credit,
      silenceSpannedSeal := u.silenceSpannedSeal, wasSilent := u.wasSilent } ∧
    (c.state = .live →
      u.sealedWindow = c.openWindow ∧ u.sealedCatchUp = c.openCatchUp ∧
      u.sealedEstimated = c.openEstimated ∧ u.wasSilent = false ∧ u.credit = c.credit ∧
      u.silenceSpannedSeal = c.silenceSpannedSeal ∧
      u.reference = (if c.wasSilent = false ∧ c.openEstimated = false then c.openWindow
        else c.reference)) ∧
    (c.state = .silent →
      u.sealedWindow = (if c.policy = .holdLast then filled else c.openWindow) ∧
      u.sealedCatchUp = c.openCatchUp ∧ u.sealedEstimated = true ∧ u.wasSilent = true ∧
      u.silenceSpannedSeal = true ∧ u.reference = c.reference ∧
      u.credit = (if c.policy = .holdLast then
          c.credit.zip satAdd
            (filled.zip (fun f o => f.toNat - o.toNat) c.openWindow)
        else c.credit)) ∧
    (c.state = .awaiting →
      u.sealedWindow = (if c.policy = .holdLast then filled else c.openWindow) ∧
      u.sealedCatchUp = c.openCatchUp ∧ u.sealedEstimated = true ∧ u.wasSilent = true ∧
      u.reference = c.reference ∧ u.credit = c.credit ∧
      u.silenceSpannedSeal = c.silenceSpannedSeal) ∧
    (c.state = .unregistered →
      u.sealedWindow = Triple.same 0 ∧ u.sealedCatchUp = Triple.same 0 ∧
      u.sealedEstimated = false ∧ u.reference = c.reference ∧ u.credit = c.credit ∧
      u.silenceSpannedSeal = c.silenceSpannedSeal ∧ u.wasSilent = c.wasSilent)) ∧
  t.links = s.links ∧ t.directory = s.directory ∧ t.tariff = s.tariff ∧
  t.attention = s.attention ∧ t.port = s.port ∧
  t.device = s.device ∧ t.holdTime = s.holdTime ∧ t.pending = s.pending

/-- R65, R93 to R96, R105, R106: the marker at the head is taken while no sweep runs (a gap of 0 is the
model's reading, log 23). -/
def Obligations.TakingTheMarkerSealsAndStarts : Prop :=
  ∀ (q : QueuedMarker) (s : State), s.awake = true → s.queue.marker = some q →
    q.position = 0 → s.sweep.running = false →
    ∃ t, exec .takeMarker s = .next t ∧ markerTaken q.marker s t

/-! ## Account table -/

/-- R15, R16: OPEN ACCOUNT, its refusals in their order and its effect. -/
def Obligations.OpenAccountTakesTheLowestSlot : Prop :=
  ∀ (image : ContractImage) (s : State), s.accepts (.openAccount image) = true →
    (contractFieldsOk image = false →
      exec (.openAccount image) s = .next (answer (s, ⟨.badOperand, []⟩))) ∧
    (contractFieldsOk image = true → noDuplicateFeed image.terms = false →
      exec (.openAccount image) s = .next (answer (s, ⟨.duplicateFeed, []⟩))) ∧
    (contractFieldsOk image = true → noDuplicateFeed image.terms = true →
      s.scheduleLoaded image.schedule.toNat = false →
      exec (.openAccount image) s = .next (answer (s, ⟨.badSchedule, []⟩))) ∧
    (contractFieldsOk image = true → noDuplicateFeed image.terms = true →
      s.scheduleLoaded image.schedule.toNat = true →
      (∃ u ∈ image.terms, s.registered u.channel.toNat = false) →
      exec (.openAccount image) s = .next (answer (s, ⟨.channelUnregistered, []⟩))) ∧
    (s.contractCheck image = none →
      ((s.lookup image.account).isSome = true →
        exec (.openAccount image) s = .next (answer (s, ⟨.duplicate, []⟩))) ∧
      (s.lookup image.account = none → (∀ i : Fin 32, s.slots[i].state ≠ .vacant) →
        exec (.openAccount image) s = .next (answer (s, ⟨.tableFull, []⟩))) ∧
      (∀ i : Fin 32, s.lookup image.account = none → s.slots[i].state = .vacant →
        (∀ j : Fin 32, j < i → s.slots[j].state ≠ .vacant) →
        ∃ t, exec (.openAccount image) s = .next (answer (t, ⟨.ok, [u8 i.val]⟩)) ∧
          t.slots = s.slots.set i
            { Account.cleared with
              state := .opening, contract := image.stored,
              checkCode := crc16 (contractBytes image.stored), lastBoundary := s.sweep.b } ∧
          (∀ e, e ∈ t.directory ↔ e = ⟨image.account, i⟩ ∨ e ∈ s.directory) ∧
          (directoryAscends s.directory = true → directoryAscends t.directory = true) ∧
          (∀ k : Fin 16, t.channels[k] =
            { s.channels[k] with
              referenceCount := s.channels[k].referenceCount +
                image.terms.countP fun u => u.channel.toNat == k.val }) ∧
          t.clock = s.clock ∧ t.sweep = s.sweep ∧ t.tariff = s.tariff ∧ t.links = s.links ∧
          t.queue = s.queue ∧ t.attention = s.attention ∧ t.port = s.port))

/-- The account in slot i is in the directory, current for b, and passes verification where it is
verified: R13 brings the command to its own rule with nothing changed. -/
def Sys2Proof.Machine.settled (account : Word) (i : Fin 32) (s : State) : Prop :=
  s.lookup account = some i ∧ s.oneBehind i = false ∧
  (s.slots[i].state.swept = true → s.verified i = true)

/-- The bytes READ ACCOUNT returns (R20; the optional items of 2 and 36 bytes, log 12). -/
def Sys2Proof.Machine.accountReported (i : Fin 32) (a : Account) : List Byte :=
  [u8 i.val, a.state.code] ++ contractBytes a.contract ++ halfBytes a.checkCode ++
  (if a.state = .faulted then 1 :: halfBytes (crc16 (contractBytes a.contract)) else [0, 0, 0]) ++
  [flagByte a.closePending, flagByte a.suspendPending, flagByte a.resumePending] ++
  (match a.amendment with
  | none => List.replicate 37 0
  | some ⟨.staged, c⟩ => [1, 1, 0, 0] ++ contractBytes c
  | some ⟨.committed .atBoundary, c⟩ => [1, 2, 1, 0] ++ contractBytes c
  | some ⟨.committed .atClose, c⟩ => [1, 2, 1, 1] ++ contractBytes c) ++
  halfBytes a.periodCount ++ wordBytes a.lastBoundary ++
  [u8 a.period.val, u8 a.window.length, flagByte a.overContract, flagByte a.negativeNet,
   flagByte a.snapshot.isSome]

/-- The bytes READ PEAKS returns (R142; the optional items, log 12). -/
def Sys2Proof.Machine.peaksReported (a : Account) : List Byte :=
  let average := topListAverage false a.contract.peaksAveraged a.topList
  let billing := billingDemand average a.ratchetValue a.contract.minimumBilling
  [a.state.code, u8 a.period.val, a.contract.peaksAveraged,
   flagByte (decide (a.contract.onePerDay ≠ 0))] ++
  (u8 a.topList.length :: a.topList.flatMap fun e =>
    wordBytes e.demand ++ calTimeBytes e.endTime ++ [u8 e.day.year, u8 e.day.month, u8 e.day.day] ++
      [flagByte e.estimated, flagByte e.timeUnsure]) ++
  (a.registers.toList.flatMap fun r =>
    match r.peak with
    | none => List.replicate 17 0
    | some p =>
      1 :: (wordBytes p.demand ++ wordBytes p.reactive ++ calTimeBytes p.endTime ++
        [flagByte p.estimated, flagByte p.timeUnsure])) ++
  [flagByte a.overContract] ++ wordBytes a.ratchetValue ++ [u8 a.ratchetRemaining] ++
  (if a.state = .faulted then List.replicate 10 0
  else 1 :: wordBytes average ++ 1 :: wordBytes billing)

/-- R19, R20, R126, R142: LIST ACCOUNTS and the three reads of an account (log 12 for the layout of
the optional items). -/
def Obligations.AccountReadsChangeNothing : Prop :=
  (∀ (start : Word) (s : State), s.accepts (.listAccounts start) = true →
    let found := s.directory.filter fun e => decide (start.toNat ≤ e.account.toNat)
    exec (.listAccounts start) s =
      .next (answer (s, ⟨.ok,
        u8 (found.take 8).length ::
          ((found.take 8).flatMap fun e =>
            wordBytes e.account ++ [u8 e.slot.val, s.slots[e.slot].state.code]) ++
          [flagByte (decide (8 < found.length))]⟩))) ∧
  (∀ (account : Word) (i : Fin 32) (s : State), settled account i s →
    (s.accepts (.readAccount account) = true →
      exec (.readAccount account) s =
        .next (answer (s, ⟨.ok, accountReported i s.slots[i]⟩))) ∧
    (∀ period, s.accepts (.readRegisters account period) = true →
      (3 < period.toNat →
        exec (.readRegisters account period) s = .next (answer (s, ⟨.badOperand, []⟩))) ∧
      (∀ p : Fin 4, period.toNat = p.val →
        exec (.readRegisters account period) s =
          .next (answer (s, ⟨.ok,
            u8 s.slots[i].period.val :: registerSetBytes s.slots[i].registers[p] ++
              u8 s.slots[i].window.length :: s.slots[i].window.flatMap windowEntryBytes⟩)))) ∧
    (s.accepts (.readPeaks account) = true →
      exec (.readPeaks account) s =
        .next (answer (s, ⟨.ok, peaksReported s.slots[i]⟩))))

/-- R144, R147: CLOSE PERIOD and FETCH CLOSED on an account that is not FAULTED. -/
def Obligations.CloseIsAskedAndSnapshotFetched : Prop :=
  ∀ (account : Word) (i : Fin 32) (s : State), settled account i s →
    s.slots[i].state ≠ .faulted →
    (s.accepts (.closePeriod account) = true →
      exec (.closePeriod account) s =
        .next (answer
          (if s.slots[i].state ≠ .active ∧ s.slots[i].state ≠ .suspended then
            (s, ⟨.wrongState, []⟩)
          else if s.slots[i].snapshot ≠ none then (s, ⟨.snapshotUnread, []⟩)
          else if s.slots[i].closePending = true then (s, ⟨.ok, [1]⟩)
          else
            ({ s with slots := s.slots.set i { s.slots[i] with closePending := true } },
              ⟨.ok, [0]⟩)))) ∧
    (s.accepts (.fetchClosed account) = true →
      (s.slots[i].snapshot = none →
        exec (.fetchClosed account) s = .next (answer (s, ⟨.noSnapshot, []⟩))) ∧
      (∀ p, s.slots[i].snapshot = some p → s.slots[i].state ≠ .retired →
        exec (.fetchClosed account) s =
          .next (answer
            ({ s with slots := s.slots.set i { s.slots[i] with snapshot := none } },
              ⟨.ok, wordBytes account ++ [u8 i.val] ++ snapshotBytes p ++ [0]⟩))) ∧
      (∀ p, s.slots[i].snapshot = some p → s.slots[i].state = .retired →
        s.slots[i].amendment = none →
        exec (.fetchClosed account) s =
          .next (answer
            ({ s with
                slots := s.slots.set i Account.cleared,
                directory := s.directory.filter fun e => e.slot != i },
              ⟨.ok, wordBytes account ++ [u8 i.val] ++ snapshotBytes p ++ [1]⟩))))

/-- How many of the feed terms name a channel. -/
def Sys2Proof.Machine.naming (k : Fin 16) (terms : List FeedPlace) : Nat :=
  terms.countP fun u => u.channel.toNat == k.val

/-- R97: from s to t the reference counts alone change, each falling by the terms that name its channel
(a count that falls below zero is a free value, log 28). -/
def Sys2Proof.Machine.termsReleased (terms : List FeedPlace) (s t : State) : Prop :=
  ∀ k : Fin 16, naming k terms ≤ s.channels[k].referenceCount →
    t.channels[k] = { s.channels[k] with
      referenceCount := s.channels[k].referenceCount - naming k terms }

/-- The feed terms of a held amendment. -/
def Sys2Proof.Machine.amendmentFeed (a : Account) : List FeedPlace :=
  match a.amendment with
  | some m => m.contract.terms
  | none => []

/-- R136: the top list under a new contract: with one-per-day the first entry of each day, and of
these the first N. -/
def Sys2Proof.Machine.topListUnder (c : ContractImage) (l : List TopEntry) : List TopEntry :=
  (if c.onePerDay = 0 then l
  else l.foldl (fun kept e => if ∃ x ∈ kept, x.day = e.day then kept else kept ++ [e]) []).take
    c.peaksAveraged.toNat

/-- R154: the recount of a channel over the terms every slot holds. -/
def Sys2Proof.Machine.recounted (s : State) (k : Fin 16) : Nat :=
  if s.channels[k].state = .unregistered then 0
  else ((List.finRange 32).map fun j : Fin 32 =>
    (if s.slots[j].state.counted = true then naming k s.slots[j].contract.terms else 0) +
    (match s.slots[j].amendment with
    | some m => naming k m.contract.terms
    | none => 0)).sum

/-- R15, R148 to R150, R153, R154: staging, committing, withdrawing, and the repair of a FAULTED
account, with the reference counts each leaves. -/
def Obligations.AmendmentsAreStagedCommittedWithdrawn : Prop :=
  ∀ (account : Word) (i : Fin 32) (s : State), settled account i s →
    (∀ image, s.accepts (.stageAmendment account image) = true →
      let a := s.slots[i]
      let barred := a.state = .retiring ∨ a.state = .retired ∨
        ∃ m c, a.amendment = some ⟨.committed m, c⟩
      (barred →
        exec (.stageAmendment account image) s = .next (answer (s, ⟨.wrongState, []⟩))) ∧
      (¬barred →
        (contractFieldsOk image = false →
          exec (.stageAmendment account image) s = .next (answer (s, ⟨.badOperand, []⟩))) ∧
        (contractFieldsOk image = true → noDuplicateFeed image.terms = false →
          exec (.stageAmendment account image) s =
            .next (answer (s, ⟨.duplicateFeed, []⟩))) ∧
        (contractFieldsOk image = true → noDuplicateFeed image.terms = true →
          s.scheduleLoaded image.schedule.toNat = false →
          exec (.stageAmendment account image) s =
            .next (answer (s, ⟨.badSchedule, []⟩))) ∧
        (contractFieldsOk image = true → noDuplicateFeed image.terms = true →
          s.scheduleLoaded image.schedule.toNat = true →
          (∃ u ∈ image.terms, s.registered u.channel.toNat = false) →
          exec (.stageAmendment account image) s =
            .next (answer (s, ⟨.channelUnregistered, []⟩))) ∧
        (s.contractCheck image = none → s.directoryAccount i ≠ some image.account →
          exec (.stageAmendment account image) s = .next (answer (s, ⟨.badOperand, []⟩))) ∧
        (s.contractCheck image = none → s.directoryAccount i = some image.account →
          ∃ t, exec (.stageAmendment account image) s =
              .next (answer (t, ⟨.ok, [flagByte a.amendment.isSome]⟩)) ∧
            t.slots = s.slots.set i { a with amendment := some ⟨.staged, image.stored⟩ } ∧
            t.directory = s.directory ∧ t.sweep = s.sweep ∧ t.attention = s.attention ∧
            (a.amendment = none → ∀ k : Fin 16, t.channels[k] =
              { s.channels[k] with
                referenceCount := s.channels[k].referenceCount + naming k image.terms }) ∧
            (∀ c, a.amendment = some ⟨.staged, c⟩ → ∀ k : Fin 16,
              naming k c.terms ≤ s.channels[k].referenceCount →
              t.channels[k] =
                { s.channels[k] with
                  referenceCount := s.channels[k].referenceCount - naming k c.terms +
                    naming k image.terms })))) ∧
    (∀ mode, s.accepts (.commitAmendment account mode) = true →
      (1 < mode.toNat →
        exec (.commitAmendment account mode) s = .next (answer (s, ⟨.badOperand, []⟩))) ∧
      (∀ m, modeOf mode = some m →
        (s.slots[i].state = .retiring ∨ s.slots[i].state = .retired →
          exec (.commitAmendment account mode) s = .next (answer (s, ⟨.wrongState, []⟩))) ∧
        (s.slots[i].state ≠ .retiring → s.slots[i].state ≠ .retired →
          (stagedContract s.slots[i] = none →
            exec (.commitAmendment account mode) s =
              .next (answer (s, ⟨.nothingStaged, []⟩))) ∧
          (∀ c, s.slots[i].amendment = some ⟨.staged, c⟩ → s.slots[i].state ≠ .faulted →
            exec (.commitAmendment account mode) s =
              .next (answer
                ({ s with
                    slots := s.slots.set i
                      { s.slots[i] with amendment := some ⟨.committed m, c⟩ } },
                  ⟨.ok, []⟩))) ∧
          (∀ c, s.slots[i].amendment = some ⟨.staged, c⟩ → s.slots[i].state = .faulted →
            ∃ t, exec (.commitAmendment account mode) s = .next (answer (t, ⟨.ok, []⟩)) ∧
              t.slots = s.slots.set i
                { s.slots[i] with
                  contract := c, checkCode := crc16 (contractBytes c), window := [],
                  topList := topListUnder c s.slots[i].topList, amendment := none,
                  period := s.lookupPeriod c.schedule s.sweep.time,
                  lastBoundary := s.sweep.b, state := .active } ∧
              (∀ k : Fin 16, t.channels[k] =
                { s.channels[k] with referenceCount := recounted t k }) ∧
              ⟨.amendmentApplied, i.val⟩ ∈ t.attention.pendingSet ∧
              t.directory = s.directory ∧ t.sweep = s.sweep)))) ∧
    (s.accepts (.withdrawAmendment account) = true →
      (s.slots[i].amendment = none →
        exec (.withdrawAmendment account) s = .next (answer (s, ⟨.nothingStaged, []⟩))) ∧
      (∀ m, s.slots[i].amendment = some m →
        ∃ t, exec (.withdrawAmendment account) s =
            .next (answer (t, ⟨.ok, [m.status.code]⟩)) ∧
          t.slots = s.slots.set i { s.slots[i] with amendment := none } ∧
          t.directory = s.directory ∧ t.attention = s.attention ∧ t.sweep = s.sweep ∧
          termsReleased m.contract.terms s t))

/-- R155, R156: the tables of SUSPEND ACCOUNT and RESUME ACCOUNT. -/
def Obligations.SuspendAndResumeCancelEachOther : Prop :=
  ∀ (account : Word) (i : Fin 32) (s : State), settled account i s →
    s.slots[i].state ≠ .faulted →
    (s.accepts (.suspendAccount account) = true →
      exec (.suspendAccount account) s =
        .next (answer
          (match s.slots[i].state, s.slots[i].suspendPending, s.slots[i].resumePending with
          | .active, false, _ =>
            ({ s with slots := s.slots.set i { s.slots[i] with suspendPending := true } },
              ⟨.ok, [0]⟩)
          | .active, true, _ => (s, ⟨.ok, [1]⟩)
          | .suspended, _, true =>
            ({ s with slots := s.slots.set i { s.slots[i] with resumePending := false } },
              ⟨.ok, [2]⟩)
          | .suspended, _, false => (s, ⟨.ok, [1]⟩)
          | _, _, _ => (s, ⟨.wrongState, []⟩)))) ∧
    (s.accepts (.resumeAccount account) = true →
      exec (.resumeAccount account) s =
        .next (answer
          (match s.slots[i].state, s.slots[i].suspendPending, s.slots[i].resumePending with
          | .suspended, _, false =>
            ({ s with slots := s.slots.set i { s.slots[i] with resumePending := true } },
              ⟨.ok, [0]⟩)
          | .suspended, _, true => (s, ⟨.ok, [1]⟩)
          | .active, true, _ =>
            ({ s with slots := s.slots.set i { s.slots[i] with suspendPending := false } },
              ⟨.ok, [2]⟩)
          | .active, false, _ => (s, ⟨.ok, [1]⟩)
          | _, _, _ => (s, ⟨.wrongState, []⟩))))

/-- R157, R158, R160, R18: RETIRE ACCOUNT by state: an OPENING account's slot becomes VACANT and its terms
are released; a FAULTED account is closed from its frozen figures and every count is set afresh
(R154). -/
def Obligations.RetireActsByState : Prop :=
  ∀ (account : Word) (i : Fin 32) (s : State), settled account i s →
    s.accepts (.retireAccount account) = true →
    (s.slots[i].state = .retiring ∨ s.slots[i].state = .retired →
      exec (.retireAccount account) s = .next (answer (s, ⟨.wrongState, []⟩))) ∧
    (s.slots[i].state ≠ .retiring → s.slots[i].state ≠ .retired →
      (s.slots[i].snapshot ≠ none →
        exec (.retireAccount account) s = .next (answer (s, ⟨.snapshotUnread, []⟩))) ∧
      (s.slots[i].snapshot = none → s.slots[i].state = .opening →
        ∃ t, exec (.retireAccount account) s = .next (answer (t, ⟨.ok, [0]⟩)) ∧
          t.slots = s.slots.set i Account.cleared ∧
          t.directory = s.directory.filter (fun e => e.slot != i) ∧
          termsReleased (s.slots[i].contract.terms ++ amendmentFeed s.slots[i]) s t ∧
          t = { s with
            slots := t.slots, directory := t.directory, channels := t.channels }) ∧
      (s.slots[i].snapshot = none →
        s.slots[i].state = .active ∨ s.slots[i].state = .suspended →
        exec (.retireAccount account) s =
          .next (answer
            ({ s with
                slots := s.slots.set i { s.slots[i] with
                  state := .retiring, closePending := false, suspendPending := false,
                  resumePending := false } },
              ⟨.ok, [1]⟩))) ∧
      (s.slots[i].snapshot = none → s.slots[i].state = .faulted →
        let a := s.slots[i]
        ∃ t p, exec (.retireAccount account) s = .next (answer (t, ⟨.ok, [2]⟩)) ∧
          t.slots = s.slots.set i { closed true true s.clock.time a with
            amendment := none, state := .retired } ∧
          t.slots[i].snapshot = some p ∧ p.finalClose = true ∧ p.faulted = true ∧
          p.closeTime = s.clock.time ∧ p.registers = a.registers ∧ p.topList = a.topList ∧
          p.periodCount = a.periodCount ∧
          p.average = topListAverage true a.contract.peaksAveraged a.topList ∧
          p.ratchetApplied = a.ratchetValue ∧
          p.billingDemand = billingDemand p.average a.ratchetValue a.contract.minimumBilling ∧
          (t.slots[i].ratchetValue, t.slots[i].ratchetRemaining) =
            ratchetAfter true a.contract p.average a.ratchetValue a.ratchetRemaining ∧
          t.slots[i].periodCount = a.periodCount + 1 ∧
          t.slots[i].registers = Vector.replicate 4 RegisterSet.zero ∧
          t.slots[i].topList = [] ∧ t.slots[i].overContract = false ∧
          t.slots[i].negativeNet = false ∧ t.slots[i].lastBoundary = a.lastBoundary ∧
          (∀ k : Fin 16, t.channels[k] =
            { s.channels[k] with referenceCount := recounted t k }) ∧
          t = State.latch .closeDone i
            { s with slots := t.slots, channels := t.channels }))

/-- The commands that pass through the order of R13, and whether R23 permits each on a FAULTED
account. -/
def Sys2Proof.Machine.accountCommands (account : Word) (period mode : Byte)
    (image : ContractImage) : List (Instr × Bool) :=
  [(.readAccount account, true), (.readRegisters account period, true),
   (.readPeaks account, true), (.closePeriod account, false), (.fetchClosed account, false),
   (.stageAmendment account image, true), (.commitAmendment account mode, true),
   (.withdrawAmendment account, true), (.suspendAccount account, false),
   (.resumeAccount account, false), (.retireAccount account, true)]

/-- The state once verification of slot i has failed (R22). -/
def Sys2Proof.Machine.faultEntered (i : Fin 32) (s : State) : State :=
  State.latch .recordFault i { s with
    slots := s.slots.set i { s.slots[i] with
      state := .faulted, closePending := false, suspendPending := false,
      resumePending := false } }

/-- R13, R22, R23, R109: an absent account is refused; the step of an account one behind runs before
the command's own rule acts, and stands; a failed verification makes the account FAULTED and stands;
the commands not permitted on a FAULTED account are refused, and each other one acts on it (log 12 for
the bytes of the two reads). -/
def Obligations.AccountCommandsPassThroughTheOrder : Prop :=
  ∀ (account : Word) (period mode : Byte) (image : ContractImage) (s : State),
    (∀ x ∈ accountCommands account period mode image, s.accepts x.1 = true →
      (s.lookup account = none →
        exec x.1 s = .next (answer (s, ⟨.noAccount, []⟩))) ∧
      (∀ i, s.lookup account = some i →
        (s.oneBehind i = true → settled account i (s.boundaryStep i) →
          exec x.1 s = exec x.1 (s.boundaryStep i)) ∧
        (s.slots[i].state.swept = true → s.verified i = false →
          settled account i (faultEntered i s) ∧
          exec x.1 s = exec x.1 (faultEntered i s) ∧
          (x.2 = false →
            exec x.1 s = .next (answer (faultEntered i s, ⟨.recordFault, []⟩)))) ∧
        (x.2 = false → s.slots[i].state = .faulted →
          exec x.1 s = .next (answer (s, ⟨.recordFault, []⟩))))) ∧
    (∀ i, s.lookup account = some i → s.oneBehind i = true →
      (s.accepts (.readAccount account) = true →
        exec (.readAccount account) s =
          .next (answer (s.boundaryStep i,
            ⟨.ok, accountReported i (s.boundaryStep i).slots[i]⟩))) ∧
      (s.accepts (.readPeaks account) = true →
        exec (.readPeaks account) s =
          .next (answer (s.boundaryStep i,
            ⟨.ok, peaksReported (s.boundaryStep i).slots[i]⟩))))

/-! ## The boundary sweep -/

/-- R107, R108: a visit passes or runs the boundary step, and raises the next slot; the visit to slot
31 ends the sweep, and a held marker is then taken at once from the state the visit leaves, which seals
the channels and starts the next sweep (when is the model's reading, log 5; a gap of 0, log 23). -/
def Obligations.SweepVisitsTheNextSlot : Prop :=
  ∀ (i : Fin 32) (s : State), s.awake = true → s.sweep.running = true →
    s.sweep.nextSlot = i.val →
    let t := if s.slots[i].state.swept = true ∧ s.slots[i].lastBoundary ≠ s.sweep.b then
      s.boundaryStep i else s
    (i.val < 31 →
      exec .sweepVisit s = .next { t with sweep := { s.sweep with nextSlot := i.val + 1 } }) ∧
    (i.val = 31 → s.sweep.heldMarker = false →
      exec .sweepVisit s =
        .next { t with sweep := { s.sweep with
          running := false, nextSlot := 32, heldMarker := false } }) ∧
    (∀ q, i.val = 31 → s.sweep.heldMarker = true → s.queue.marker = some q →
      ∃ u, exec .sweepVisit s = .next u ∧
        markerTaken q.marker
          { t with sweep := { s.sweep with
            running := false, nextSlot := 32, heldMarker := false } } u)

/-- R114: the record after stage 3, passed over for a SUSPENDED account. -/
def Sys2Proof.Machine.afterStageThree (s : State) (a : Account) : Account :=
  if a.state = .suspended then a else (s.fold a).1

/-- R120: the record after stage 4. -/
def Sys2Proof.Machine.afterStageFour (a : Account) : Account :=
  if a.state = .active ∧ a.suspendPending = true then
    { a with state := .suspended, suspendPending := false }
  else if a.state = .suspended ∧ a.resumePending = true then
    { a with state := .active, window := [], resumePending := false }
  else a

/-- R21, R22, R111 to R113, R120 to R124, R151, R152, R159: a failed verification only makes the
account FAULTED; an OPENING account becomes ACTIVE and a SUSPENDED one is stepped, with no fold; a
step touches nothing but its slot, the reference counts and the pending set, which the kinds the fold
latches enter with the slot as source (R114, R131, R163); stages 4 to 8 suspend or
resume, close, apply the amendment that is due, choose the period and record b. -/
def Obligations.BoundaryStepKeepsToItsAccount : Prop :=
  (∀ (i : Fin 32) (s : State),
    let a := s.slots[i]
    let t := s.boundaryStep i
    (s.verified i = false →
      t = State.latch .recordFault i { s with
        slots := s.slots.set i { a with
          state := .faulted, closePending := false, suspendPending := false,
          resumePending := false } }) ∧
    (s.verified i = true → a.state = .opening →
      t.slots = s.slots.set i { a with
        state := .active, window := [], lastBoundary := s.sweep.b,
        period := s.lookupPeriod a.contract.schedule s.sweep.time }) ∧
    (s.verified i = true → a.state = .suspended → a.resumePending = false →
      a.closePending = false → a.amendment = none →
      t.slots = s.slots.set i { a with
        lastBoundary := s.sweep.b,
        period := s.lookupPeriod a.contract.schedule s.sweep.time }) ∧
    (∀ j : Fin 32, j ≠ i → t.slots[j] = s.slots[j]) ∧
    t.device = s.device ∧ t.clock = s.clock ∧ t.tariff = s.tariff ∧ t.links = s.links ∧
    t.holdTime = s.holdTime ∧ t.queue = s.queue ∧ t.sweep = s.sweep ∧
    t.directory = s.directory ∧ t.port = s.port ∧ t.pending = s.pending ∧
    t.attention.mask = s.attention.mask ∧
    (∀ k : Fin 16, { t.channels[k] with referenceCount := 0 } =
      { s.channels[k] with referenceCount := 0 }) ∧
    (∀ p ∈ s.attention.pendingSet, p ∈ t.attention.pendingSet) ∧
    (∀ p ∈ t.attention.pendingSet, p ∈ s.attention.pendingSet ∨
      (p.source = i.val ∧ p.kind.ofSlot = true))) ∧
  (∀ (i : Fin 32) (s : State), s.verified i = true →
    s.slots[i].state = .active ∨ s.slots[i].state = .suspended ∨ s.slots[i].state = .retiring →
    let g := afterStageThree s s.slots[i]
    let h := afterStageFour g
    let c := if h.closePending = true then closed false false s.sweep.time h else h
    let t := s.boundaryStep i
    (s.slots[i].state ≠ .suspended → ∀ k ∈ (s.fold s.slots[i]).2,
      ⟨k, i.val⟩ ∈ t.attention.pendingSet) ∧
    (h.state = .retiring →
      t.slots[i] = { closed false true s.sweep.time h with
        amendment := none, state := .retired, lastBoundary := s.sweep.b } ∧
      ⟨.closeDone, i.val⟩ ∈ t.attention.pendingSet ∧
      termsReleased (h.contract.terms ++ amendmentFeed h) s t) ∧
    (h.state ≠ .retiring → h.closePending = true →
      ⟨.closeDone, i.val⟩ ∈ t.attention.pendingSet) ∧
    (h.state ≠ .retiring → ∀ d,
      (h.amendment = some ⟨.committed .atBoundary, d⟩ ∨
        (h.amendment = some ⟨.committed .atClose, d⟩ ∧ h.closePending = true)) →
      t.slots[i] = { c with
        contract := d, checkCode := crc16 (contractBytes d),
        window := if d.windowLength = h.contract.windowLength ∧
            (∀ u ∈ d.terms, u ∈ h.contract.terms) ∧
            (∀ u ∈ h.contract.terms, u ∈ d.terms) then h.window else [],
        topList := topListUnder d c.topList, amendment := none,
        period := s.lookupPeriod d.schedule s.sweep.time, lastBoundary := s.sweep.b } ∧
      ⟨.amendmentApplied, i.val⟩ ∈ t.attention.pendingSet ∧
      termsReleased h.contract.terms s t) ∧
    (h.state ≠ .retiring →
      (∀ d, h.amendment ≠ some ⟨.committed .atBoundary, d⟩) →
      (∀ d, h.amendment = some ⟨.committed .atClose, d⟩ → h.closePending = false) →
      t.slots[i] = { c with
        period := s.lookupPeriod h.contract.schedule s.sweep.time,
        lastBoundary := s.sweep.b } ∧
      t.channels = s.channels))

/-- R124: stage 8 records b. -/
def Obligations.StageEightRecordsTheBoundary : Prop :=
  ∀ (i : Fin 32) (s : State), s.verified i = true →
    (s.boundaryStep i).slots[i].lastBoundary = s.sweep.b ∧
    (s.boundaryStep i).visitSlot i = s.boundaryStep i ∧
    (s.boundaryStep i).oneBehind i = false

/-- The exact sum over feed terms of sign times a sealed component, held within signed 48 bits
(R114). -/
def Sys2Proof.Machine.exactNet (part : Fin 16 → Quantity) (terms : List FeedPlace) : Int :=
  max (-(2 ^ 47)) (min (2 ^ 47 - 1)
    ((terms.map fun u =>
      (if u.sign = 1 then 1 else -1) * ((part (Fin.ofNat 16 u.channel.toNat)).toNat : Int)).sum))

/-- R114 to R119: the six nets are exact and held, and the subinterval is estimated for the account
when a channel it names is sealed estimated; the fold adds the positive nets to the current
period's set alone, saturating, counts the subinterval, and moves or empties the window. -/
def Obligations.FoldAddsToTheCurrentPeriod : Prop :=
  (∀ (a : Account) (s : State),
    (∀ u ∈ a.contract.terms, u.channel.toNat < 16 ∧ (u.sign = 1 ∨ u.sign = 2)) →
    (s.windowNet a).active =
      exactNet (fun k => s.channels[k].sealedWindow.active) a.contract.terms ∧
    (s.windowNet a).lagging =
      exactNet (fun k => s.channels[k].sealedWindow.lagging) a.contract.terms ∧
    (s.windowNet a).leading =
      exactNet (fun k => s.channels[k].sealedWindow.leading) a.contract.terms ∧
    (s.catchUpNet a).active =
      exactNet (fun k => s.channels[k].sealedCatchUp.active) a.contract.terms ∧
    (s.catchUpNet a).lagging =
      exactNet (fun k => s.channels[k].sealedCatchUp.lagging) a.contract.terms ∧
    (s.catchUpNet a).leading =
      exactNet (fun k => s.channels[k].sealedCatchUp.leading) a.contract.terms ∧
    (s.estimatedFor a = true ↔ ∃ u ∈ a.contract.terms,
      s.channels[Fin.ofNat 16 u.channel.toNat].sealedEstimated = true)) ∧
  (∀ (r : EnergyRegister) (n : Nat),
    (r.add n).value.toNat = min (2 ^ 48 - 1) (r.value.toNat + n) ∧
    ((r.add n).saturated = true ↔ r.saturated = true ∨ 2 ^ 48 - 1 < r.value.toNat + n)) ∧
  (∀ (a : Account) (s : State),
    let b := (s.fold a).1
    let old := a.registers[a.period]
    let new := b.registers[a.period]
    let w := s.windowNet a
    let c := s.catchUpNet a
    let m := a.contract.allowance.toNat
    (∀ p : Fin 4, p ≠ a.period → b.registers[p] = a.registers[p]) ∧
    new.active = (old.active.add w.active.toNat).add c.active.toNat ∧
    new.lagging = (old.lagging.add w.lagging.toNat).add c.lagging.toNat ∧
    new.leading = (old.leading.add w.leading.toNat).add c.leading.toNat ∧
    new.excessLagging =
      (old.excessLagging.add
        (w.lagging - ((w.active.toNat * m / 1000 : Nat) : Int)).toNat).add
        (c.lagging - ((c.active.toNat * m / 1000 : Nat) : Int)).toNat ∧
    new.excessLeading =
      (if (s.attributes a.contract.schedule a.period).leadingPenalised = true then
        (old.excessLeading.add w.leading.toNat).add c.leading.toNat
      else old.excessLeading) ∧
    new.subintervals = countUp old.subintervals ∧
    new.estimatedCount =
      (if s.estimatedFor a = true then countUp old.estimatedCount else old.estimatedCount) ∧
    b.negativeNet = (a.negativeNet || decide (w.active < 0)) ∧
    (.negativeNet ∈ (s.fold a).2 ↔ w.active < 0 ∧ a.negativeNet = false) ∧
    (s.sweep.kind = .irregular → b.window = [] ∧ new.peak = old.peak ∧
      b.topList = a.topList ∧ b.overContract = a.overContract) ∧
    (s.sweep.kind = .regular → 1 ≤ a.contract.windowLength.toNat →
      a.window.length ≤ a.contract.windowLength.toNat →
      b.window.length = min (a.window.length + 1) a.contract.windowLength.toNat ∧
      b.window = (if a.window.length < a.contract.windowLength.toNat then a.window
        else a.window.drop 1) ++ [⟨w.map (BitVec.ofInt 48), s.estimatedFor a⟩]) ∧
    b.state = a.state ∧ b.contract = a.contract ∧ b.amendment = a.amendment ∧
    b.snapshot = a.snapshot ∧ b.period = a.period ∧ b.lastBoundary = a.lastBoundary ∧
    b.ratchetValue = a.ratchetValue ∧ b.periodCount = a.periodCount)

/-- R133: an entry placed behind every entry as great or greater. -/
def Sys2Proof.Machine.entered (e : TopEntry) (l : List TopEntry) : List TopEntry :=
  (l.filter fun x => decide (e.demand.toNat ≤ x.demand.toNat)) ++
    e :: l.filter fun x => decide (x.demand.toNat < e.demand.toNat)

/-- R118, R125, R129 to R135: the demand of a full window, evaluated at a regular fold exactly when the
window then holds W entries; the peak record, the over-contract flag and the top list after it: a list
that is not full takes the demand, a full one a demand greater than its last entry's, and with one-per-day
a demand is judged against the entry of its own day. -/
def Obligations.DemandIsEvaluated : Prop :=
  (∀ (part : Triple Quantity → Quantity) (w length : Nat) (l : List WindowEntry),
    (demandOf part w length l).toNat =
      min (2 ^ 32 - 1) (((l.map fun e => (part e.net).toInt).sum).toNat * 3600 / (w * length))) ∧
  (∀ (d : Demand) (p : PeakRecord),
    newPeak d none = some ⟨d.demand, d.reactive, d.endTime, d.estimated, d.timeUnsure⟩ ∧
    (p.demand.toNat < d.demand.toNat →
      newPeak d (some p) =
        some ⟨d.demand, d.reactive, d.endTime, d.estimated, d.timeUnsure⟩) ∧
    (d.demand.toNat ≤ p.demand.toNat → newPeak d (some p) = some p)) ∧
  (∀ (d : Demand) (a : Account) (s : State),
    let b := s.evaluated d a
    (b.overContract = true ↔
      a.contract.contractDemand ≠ 0 ∧
        a.contract.contractDemand.toNat < d.demand.toNat) ∧
    (.demandExceeded ∈ demandLatches d a ↔ b.overContract = true ∧ a.overContract = false) ∧
    b.registers[a.period] =
      { a.registers[a.period] with peak := newPeak d a.registers[a.period].peak } ∧
    (∀ p : Fin 4, p ≠ a.period → b.registers[p] = a.registers[p]) ∧
    b.topList =
      (if (s.attributes a.contract.schedule a.period).demandChargeable = true then
        offerTop a.contract.peaksAveraged.toNat (decide (a.contract.onePerDay ≠ 0))
          ⟨d.demand, d.endTime, dayOfDemand d.endTime, d.estimated, d.timeUnsure⟩ a.topList
      else a.topList) ∧
    b = { a with
      registers := b.registers, overContract := b.overContract, topList := b.topList }) ∧
  (∀ (a : Account) (s : State), s.sweep.kind = .regular →
    1 ≤ a.contract.windowLength.toNat → a.window.length ≤ a.contract.windowLength.toNat →
    let b := (s.fold a).1
    let w := a.contract.windowLength.toNat
    let d : Demand :=
      ⟨demandOf Triple.active w s.clock.subinterval b.window,
        demandOf Triple.lagging w s.clock.subinterval b.window, s.sweep.time,
        b.window.any WindowEntry.estimated, !s.clock.trust⟩
    (b.window.length < w →
      b.registers[a.period].peak = a.registers[a.period].peak ∧
      b.overContract = a.overContract ∧ b.topList = a.topList ∧
      .demandExceeded ∉ (s.fold a).2) ∧
    (b.window.length = w →
      b.registers[a.period].peak = newPeak d a.registers[a.period].peak ∧
      b.overContract = (s.evaluated d a).overContract ∧
      b.topList = (s.evaluated d a).topList ∧
      (.demandExceeded ∈ (s.fold a).2 ↔ b.overContract = true ∧ a.overContract = false))) ∧
  (∀ (n : Nat) (oneDay : Bool) (e : TopEntry) (l : List TopEntry),
    topDescends l = true → l.length ≤ n →
    topDescends (offerTop n oneDay e l) = true ∧ (offerTop n oneDay e l).length ≤ n ∧
    ((oneDay = true → ∀ x ∈ l, x.day ≠ e.day) →
      (l.length < n → offerTop n oneDay e l = entered e l) ∧
      (∀ last, l.length = n → l.getLast? = some last →
        (last.demand.toNat < e.demand.toNat → offerTop n oneDay e l = entered e l.dropLast) ∧
        (e.demand.toNat ≤ last.demand.toNat → offerTop n oneDay e l = l))) ∧
    (oneDay = true → (l.map TopEntry.day).Nodup →
      ((offerTop n oneDay e l).map TopEntry.day).Nodup ∧
      (∀ held ∈ l, held.day = e.day →
        (held.demand.toNat < e.demand.toNat →
          offerTop n oneDay e l = entered e (l.filter fun x => decide (x.day ≠ e.day))) ∧
        (e.demand.toNat ≤ held.demand.toNat → offerTop n oneDay e l = l))))

/-- R137, R138: the top-list average and billing demand of a close, and what the close stores. -/
def Obligations.BillingDemandIsTheGreatest : Prop :=
  (∀ (n : Byte) (l : List TopEntry), 1 ≤ n.toNat → n.toNat ≤ 4 → l.length ≤ n.toNat →
    (topListAverage false n l).toNat = ((l.map fun e => e.demand.toNat).sum) / n.toNat ∧
    (l = [] → topListAverage false n l = 0)) ∧
  (∀ (average ratchet minimum : Word),
    (billingDemand average ratchet minimum).toNat =
      max (max average.toNat ratchet.toNat) minimum.toNat) ∧
  (∀ (faulted final : Bool) (time : CalTime) (a : Account),
    ∃ p, (closed faulted final time a).snapshot = some p ∧
      p.average = topListAverage faulted a.contract.peaksAveraged a.topList ∧
      p.ratchetApplied = a.ratchetValue ∧
      p.billingDemand = billingDemand p.average a.ratchetValue a.contract.minimumBilling)

/-- R139 to R141, R145, R146: the ratchet record after a close, from the contract as it is kept and
from a FAULTED one with a field out of range, and what a close freezes and clears. That a candidate
below the value leaves a record with no remaining periods as it is, is the model's choice (log 34). -/
def Obligations.CloseFreezesThePeriod : Prop :=
  (∀ (c : ContractImage) (average value : Word) (remaining : Nat),
    1 ≤ c.ratchetPeriods.toNat → c.ratchetPeriods.toNat ≤ 12 →
    let percent := c.ratchetPercent.toNat
    let candidate := average.toNat * percent / 100
    (50 ≤ percent → percent ≤ 100 → value.toNat ≤ candidate →
      (ratchetAfter false c average value remaining).1.toNat = candidate ∧
      (ratchetAfter false c average value remaining).2 = c.ratchetPeriods.toNat) ∧
    (50 ≤ percent → percent ≤ 100 → candidate < value.toNat → 1 ≤ remaining →
      ratchetAfter false c average value remaining =
        (if remaining = 1 then 0 else value, remaining - 1)) ∧
    (percent = 0 → 1 ≤ remaining →
      ratchetAfter false c average value remaining =
        (if remaining = 1 then 0 else value, remaining - 1)) ∧
    (percent = 0 → remaining = 0 →
      ratchetAfter false c average value remaining = (value, 0))) ∧
  (∀ (n : Byte) (l : List TopEntry),
    (n.toNat = 0 ∨ 4 < n.toNat →
      (topListAverage true n l).toNat = (l.map fun e => e.demand.toNat).sum / l.length) ∧
    (1 ≤ n.toNat → n.toNat ≤ 4 → topListAverage true n l = topListAverage false n l)) ∧
  (∀ (c : ContractImage) (average value : Word) (remaining : Nat),
    let percent := c.ratchetPercent.toNat
    let periods := c.ratchetPeriods.toNat
    let candidate := average.toNat * percent / 100
    (percent < 50 ∨ 100 < percent →
      ratchetAfter true c average value remaining =
        if remaining = 0 then (value, 0)
        else (if remaining = 1 then 0 else value, remaining - 1)) ∧
    (50 ≤ percent → percent ≤ 100 → value.toNat ≤ candidate →
      (ratchetAfter true c average value remaining).1.toNat = candidate ∧
      (ratchetAfter true c average value remaining).2 =
        if periods = 0 then 1 else if 12 < periods then 12 else periods) ∧
    (50 ≤ percent → percent ≤ 100 → candidate < value.toNat →
      ratchetAfter true c average value remaining =
        if remaining = 0 then (value, 0)
        else (if remaining = 1 then 0 else value, remaining - 1))) ∧
  (∀ (faulted final : Bool) (time : CalTime) (a : Account),
    let b := closed faulted final time a
    ∃ p, b.snapshot = some p ∧ p.periodCount = a.periodCount ∧ p.closeTime = time ∧
      p.registers = a.registers ∧ p.topList = a.topList ∧ p.finalClose = final ∧
      p.faulted = faulted ∧
      (p.estimatedAny = true ↔
        (∃ k : Fin 4, a.registers[k].estimatedCount ≠ 0 ∨
          ∃ r, a.registers[k].peak = some r ∧ r.estimated = true) ∨
        ∃ e ∈ a.topList, e.estimated = true) ∧
      b.registers = Vector.replicate 4 RegisterSet.zero ∧ b.topList = [] ∧
      b.overContract = false ∧ b.negativeNet = false ∧ b.closePending = false ∧
      b.periodCount = a.periodCount + 1 ∧ b.window = a.window ∧ b.contract = a.contract ∧
      b.amendment = a.amendment ∧ b.state = a.state ∧
      (b.ratchetValue, b.ratchetRemaining) =
        ratchetAfter faulted a.contract p.average a.ratchetValue a.ratchetRemaining)

/-! ## Attention unit -/

/-- R162: the kinds whose source is a slot. -/
def Sys2Proof.Machine.slotKinds : List AttnKind :=
  [.recordFault, .demandExceeded, .closeDone, .amendmentApplied, .negativeNet]

/-- R166: the account number reported with a pair: for a pair of slot type that of the contract part
of the slot it names, 0 where that slot is VACANT, and 0 for a pair of any other type. -/
def Sys2Proof.Machine.accountHeld (s : State) (p : AttnPair) : Word :=
  if h : p.source < 32 then
    if p.kind ∈ slotKinds ∧ s.slots[p.source].state ≠ .vacant then
      s.slots[p.source].contract.account
    else 0
  else 0

/-- R165, R166, R168: TAKE ATTENTION removes and reports the enabled pair of highest rank and, within
it, lowest source; DISMISS removes the pairs it names, whatever the mask. -/
def Obligations.TakingAndDismissing : Prop :=
  (∀ s : State, s.accepts .takeAttention = true → s.attention.sound = true →
    (∀ p ∈ s.attention.pendingSet, enabled s.attention.mask p.kind = true →
      (∀ q ∈ s.attention.pendingSet, enabled s.attention.mask q.kind = true →
        q.kind.rank < p.kind.rank ∨ (q.kind = p.kind ∧ p.source ≤ q.source)) →
      let left := s.attention.pendingSet.filter fun q => decide (q ≠ p)
      exec .takeAttention s =
        .next (answer
          ({ s with attention := { s.attention with pendingSet := left } },
            ⟨.ok,
              [0, u8 p.kind.rank, u8 p.source] ++ wordBytes (accountHeld s p) ++
              [u8 (left.filter fun q => enabled s.attention.mask q.kind).length,
                u8 left.length]⟩))) ∧
    ((∀ p ∈ s.attention.pendingSet, enabled s.attention.mask p.kind = false) →
      exec .takeAttention s =
        .next (answer (s, ⟨.ok,
          [1, 0, 0, 0, 0, 0, 0, 0, u8 s.attention.pendingSet.length]⟩)))) ∧
  (∀ (kinds : Half) (source : Option Byte) (s : State),
    s.accepts (.dismiss kinds source) = true →
    (∀ b, source = some b → 31 < b.toNat →
      exec (.dismiss kinds source) s = .next (answer (s, ⟨.badOperand, []⟩))) ∧
    ((∀ b, source = some b → b.toNat ≤ 31) →
      let left := s.attention.pendingSet.filter fun p =>
        !(kinds.getLsbD p.kind.rank && (source.all fun b => p.source == b.toNat))
      exec (.dismiss kinds source) s =
        .next (answer
          ({ s with attention := { s.attention with pendingSet := left } },
            ⟨.ok, [u8 (s.attention.pendingSet.length - left.length), u8 left.length]⟩))))

/-- R164, R169, R170, R173: the mask is replaced whole; READ ATTENTION changes nothing; ATTN and READY
follow the state. -/
def Obligations.MaskAndLines : Prop :=
  (∀ (mask : Half) (s : State), s.accepts (.setAttentionMask mask) = true →
    exec (.setAttentionMask mask) s =
      .next (answer
        ({ s with attention := { s.attention with mask := mask } },
          ⟨.ok,
            halfBytes s.attention.mask ++
              [u8 (s.attention.pendingSet.filter fun p => enabled mask p.kind).length]⟩))) ∧
  (∀ (b : Byte) (s : State), s.accepts (.readAttention b) = true →
    (15 < b.toNat →
      exec (.readAttention b) s = .next (answer (s, ⟨.badOperand, []⟩))) ∧
    (∀ k : AttnKind, b.toNat = k.rank →
      let mine := s.attention.pendingSet.filter fun p => decide (p.kind = k)
      exec (.readAttention b) s =
        .next (answer (s, ⟨.ok,
          halfBytes s.attention.mask ++
          ((List.range 16).map fun r =>
            u8 (s.attention.pendingSet.filter fun p => p.kind.rank == r).length) ++
          [u8 s.attention.pendingSet.length] ++
          (u8 mine.length :: mine.flatMap fun p =>
            u8 p.source :: (if k ∈ slotKinds then wordBytes (accountHeld s p) else [])) ++
          [flagByte s.attn]⟩)))) ∧
  (∀ s : State,
    (s.attn = true ↔
      ∃ p ∈ s.attention.pendingSet, s.attention.mask.getLsbD p.kind.rank = true) ∧
    (s.ready = true ↔ ∃ r, s.port.state = .responseReady r))

/-! ## Half a second on an empty queue -/

/-- One second advance with what follows it in an awake part, and alone while the reset pin is held
(R27, R188). -/
def Sys2Proof.Machine.secondPassed (s : State) : State :=
  if s.awake = true then secondMade s else { s with clock := secondLater s.clock }

/-- R29, R30: the clock's half second: the second half second of INTERNAL makes a second, and the sixth
of a pulse gap the fallback. -/
def Sys2Proof.Machine.clockHalf (s : State) : State :=
  match s.clock.source with
  | .internal =>
    if s.clock.phaseHalves = 0 then { s with clock := { s.clock with phaseHalves := 1 } }
    else secondPassed { s with clock := { s.clock with phaseHalves := 0 } }
  | .pulse =>
    if s.clock.gapHalves < 5 then
      { s with clock := { s.clock with gapHalves := s.clock.gapHalves + 1 } }
    else
      let t := secondPassed (secondPassed (secondPassed
        { s with clock := fallenBack s.clock }))
      if s.awake = true then t.latch .clockIrregular 0 else t

/-- R80, R88: a channel's presence timer counts half a second, and one that runs out stops and makes a
LIVE channel SILENT. -/
def Sys2Proof.Machine.presenceHalf (c : Channel) : Channel :=
  if c.timerMode = .running then
    if 1 < c.timerHalves then { c with timerHalves := c.timerHalves - 1 }
    else
      { c with
        timerMode := .stopped, timerHalves := 0,
        state := if c.state = .live then .silent else c.state,
        wasSilent := if c.state = .live then true else c.wasSilent }
  else c

/-- R72, R73: a link's hold timer counts half a second: at half the hold time the refresh point, at all
of it the expiry. -/
def Sys2Proof.Machine.holdHalf (holdTime : Nat) (congested : Bool) (l : Link) : Link :=
  match l.holdTimer with
  | none => l
  | some h =>
    if h + 1 = l.lastHold then
      if l.flow = .held ∧ congested = true ∧ l.waitingControl = none then
        controlAsked holdTime .hold .held { l with holdTimer := some l.lastHold }
      else { l with holdTimer := some l.lastHold }
    else if 2 * l.lastHold ≤ h + 1 then
      if l.flow = .held ∨ l.flow = .releasePending then
        { l with holdTimer := none, flow := .flowing, waitingControl := none }
      else { l with holdTimer := none }
    else { l with holdTimer := some (h + 1) }

/-- A step on an empty queue of commands is half a second of the internal oscillator (the model's
choice, log 3; the unit is log 17, and the order of what falls due in it log 21): the clock, then every
presence timer, then every hold timer. While the reset pin is held the clock alone goes on (R188; it
latches nothing, log 20). In an outage with retention kept the calendar goes on (R42; the monotonic count
stands, log 8, and the phase at the failure is gone on with, log 33), and with retention lost nothing
does. -/
def Obligations.HalfSecondOnAnEmptyQueue : Prop :=
  ∀ s : State, s.pending = [] →
    (s.awake = true →
      ∃ t, step s = .next t ∧
        let u := clockHalf s
        t.clock = u.clock ∧ t.queue = u.queue ∧ t.sweep = u.sweep ∧ t.holdTime = s.holdTime ∧
        t.slots = s.slots ∧ t.directory = s.directory ∧ t.tariff = s.tariff ∧
        t.port = s.port ∧ t.device = s.device ∧ t.pending = [] ∧
        (∀ n : Fin 4, t.links[n] = holdHalf s.holdTime u.queue.congested u.links[n]) ∧
        (∀ k : Fin 16, t.channels[k] =
          let c := presenceHalf s.channels[k]
          if u.links[linkOf k].flow ≠ .flowing ∧ t.links[linkOf k].flow = .flowing ∧
              c.state ≠ .unregistered then
            { c with timerHalves := 2 * c.timeout, timerMode := .running }
          else c) ∧
        (∀ p, p ∈ t.attention.pendingSet ↔ p ∈ u.attention.pendingSet ∨
          ∃ k : Fin 16, p = ⟨.channelSilent, k.val⟩ ∧ s.channels[k].state = .live ∧
            s.channels[k].timerMode = .running ∧ s.channels[k].timerHalves ≤ 1) ∧
        t.attention.mask = s.attention.mask) ∧
    (s.device.mainPower = true → s.device.resetHeld = true → step s = .next (clockHalf s)) ∧
    (s.device.mainPower = false → s.device.retentionValid = true →
      (s.clock.phaseHalves = 0 →
        step s = .next { s with clock := { s.clock with phaseHalves := 1 } }) ∧
      (s.clock.phaseHalves ≠ 0 →
        step s = .next { s with clock :=
          { secondLater s.clock with monotonic := s.clock.monotonic, phaseHalves := 0 } })) ∧
    (s.device.mainPower = false → s.device.retentionValid = false → step s = .next s)

/-! ## Invariants that every step keeps -/

/-- The invariants below hold in the state after reset. -/
def Obligations.ResetHasTheInvariants : Prop :=
  State.reset.queueSound = true ∧ State.reset.attention.sound = true ∧
  State.reset.clock.sound = true ∧ State.reset.tariffSound = true ∧
  (∀ k : Fin 16, State.reset.channels[k].sound = true ∧ State.reset.timerAgrees k = true ∧
    State.reset.countAgrees k = true) ∧
  (∀ n : Fin 4, State.reset.links[n].sound = true) ∧
  State.reset.directorySound = true ∧
  (∀ i : Fin 32, State.reset.slots[i].vacantSound = true ∧
    State.reset.slots[i].pendingSound = true ∧ State.reset.slots[i].snapshotSound = true ∧
    topDescends State.reset.slots[i].topList = true) ∧
  State.reset.boundariesSound = true

/-- R34, R63, R104, R108: at most 64 entries; marker waiting is set exactly while a marker is in the
queue; the held-marker flag is set exactly while it stands at the head and the sweep runs. -/
def Obligations.QueueAndMarkerStaySound : Prop :=
  ∀ s t : State, s.queueSound = true → step s = .next t → t.queueSound = true

/-- R162, R163: the pending set never holds a pair twice, nor one out of its kind's range. -/
def Obligations.PendingSetStaysASet : Prop :=
  ∀ s t : State, s.attention.sound = true → step s = .next t → t.attention.sound = true

/-- R26, R45, R46: the calendar names a real time whose day of week agrees, the subinterval length is
one of the seven, and the stored schedules and holidays keep their form under it. -/
def Obligations.ClockAndTariffStaySound : Prop :=
  ∀ s t : State, s.clock.sound = true → s.tariffSound = true → step s = .next t →
    t.clock.sound = true ∧ t.tariffSound = true

/-- R78, R80, R92: the credit is zero in every state but SILENT, and the channel records keep the
fields their states give them. -/
def Obligations.ChannelRecordsStaySound : Prop :=
  ∀ s t : State, (∀ k : Fin 16, s.channels[k].sound = true) → step s = .next t →
    ∀ k : Fin 16, t.channels[k].sound = true

/-- R58, R67, R70, R74: the link records keep what their states say, and a registered channel's timer
is FROZEN exactly while its link is not FLOWING. -/
def Obligations.LinksAndTimersStaySound : Prop :=
  ∀ s t : State,
    ((∀ n : Fin 4, s.links[n].sound = true) → step s = .next t →
      ∀ n : Fin 4, t.links[n].sound = true) ∧
    ((∀ k : Fin 16, s.timerAgrees k = true) → step s = .next t →
      ∀ k : Fin 16, t.timerAgrees k = true)

/-- R12: the directory holds one entry for each slot that is not VACANT and none for a VACANT slot, in
strictly ascending account number. -/
def Obligations.DirectoryStaysSound : Prop :=
  ∀ s t : State, s.directorySound = true → step s = .next t → t.directorySound = true

/-- R18, R133, R144, R146, R155 to R159: the cleared form of a VACANT slot, the pending flags and the
snapshot an account's state admits, and the order of its top list. -/
def Obligations.AccountRecordsStaySound : Prop :=
  ∀ s t : State, s.directorySound = true →
    (∀ i : Fin 32, s.slots[i].vacantSound = true ∧ s.slots[i].pendingSound = true ∧
      s.slots[i].snapshotSound = true ∧ topDescends s.slots[i].topList = true) →
    step s = .next t →
    ∀ i : Fin 32, t.slots[i].vacantSound = true ∧ t.slots[i].pendingSound = true ∧
      t.slots[i].snapshotSound = true ∧ topDescends t.slots[i].topList = true

/-- R11: an account in a swept state is current for b, or one behind while the sweep for b runs and
has not visited it. -/
def Obligations.AccountsStayCurrent : Prop :=
  ∀ s t : State, s.directorySound = true → s.boundariesSound = true → step s = .next t →
    t.boundariesSound = true

/-- R97: while no storage disturbance alters a stored feed list, each reference count is the number
of feed terms that name the channel, and a counted channel is registered. -/
def Obligations.ReferenceCountsStayExact : Prop :=
  ∀ s t : State, s.directorySound = true → (∀ i : Fin 32, s.slots[i].vacantSound = true) →
    (∀ k : Fin 16, s.countAgrees k = true) →
    (∀ i c code rest, s.pending ≠ .storageDisturbance i c code :: rest) →
    step s = .next t → ∀ k : Fin 16, t.countAgrees k = true
end

