-- ==== Sys2Proof/Laws/State.lean ====
section
/-!
SUPPORT. What each update of the state leaves in each field: one lemma per field per update, so that
no proof unfolds a record update.
-/

namespace Sys2Proof.Machine


/-! ## setDevice -/

section
variable (x : Device) (s : State)

@[simp] theorem State.setDevice_device :
    (s.setDevice x).device = x := rfl
@[simp] theorem State.setDevice_clock :
    (s.setDevice x).clock = s.clock := rfl
@[simp] theorem State.setDevice_tariff :
    (s.setDevice x).tariff = s.tariff := rfl
@[simp] theorem State.setDevice_links :
    (s.setDevice x).links = s.links := rfl
@[simp] theorem State.setDevice_holdTime :
    (s.setDevice x).holdTime = s.holdTime := rfl
@[simp] theorem State.setDevice_queue :
    (s.setDevice x).queue = s.queue := rfl
@[simp] theorem State.setDevice_channels :
    (s.setDevice x).channels = s.channels := rfl
@[simp] theorem State.setDevice_sweep :
    (s.setDevice x).sweep = s.sweep := rfl
@[simp] theorem State.setDevice_slots :
    (s.setDevice x).slots = s.slots := rfl
@[simp] theorem State.setDevice_directory :
    (s.setDevice x).directory = s.directory := rfl
@[simp] theorem State.setDevice_attention :
    (s.setDevice x).attention = s.attention := rfl
@[simp] theorem State.setDevice_port :
    (s.setDevice x).port = s.port := rfl
@[simp] theorem State.setDevice_pending :
    (s.setDevice x).pending = s.pending := rfl

end

/-! ## setClock -/

section
variable (x : Clock) (s : State)

@[simp] theorem State.setClock_device :
    (s.setClock x).device = s.device := rfl
@[simp] theorem State.setClock_clock :
    (s.setClock x).clock = x := rfl
@[simp] theorem State.setClock_tariff :
    (s.setClock x).tariff = s.tariff := rfl
@[simp] theorem State.setClock_links :
    (s.setClock x).links = s.links := rfl
@[simp] theorem State.setClock_holdTime :
    (s.setClock x).holdTime = s.holdTime := rfl
@[simp] theorem State.setClock_queue :
    (s.setClock x).queue = s.queue := rfl
@[simp] theorem State.setClock_channels :
    (s.setClock x).channels = s.channels := rfl
@[simp] theorem State.setClock_sweep :
    (s.setClock x).sweep = s.sweep := rfl
@[simp] theorem State.setClock_slots :
    (s.setClock x).slots = s.slots := rfl
@[simp] theorem State.setClock_directory :
    (s.setClock x).directory = s.directory := rfl
@[simp] theorem State.setClock_attention :
    (s.setClock x).attention = s.attention := rfl
@[simp] theorem State.setClock_port :
    (s.setClock x).port = s.port := rfl
@[simp] theorem State.setClock_pending :
    (s.setClock x).pending = s.pending := rfl

end

/-! ## setTariff -/

section
variable (x : Tariff) (s : State)

@[simp] theorem State.setTariff_device :
    (s.setTariff x).device = s.device := rfl
@[simp] theorem State.setTariff_clock :
    (s.setTariff x).clock = s.clock := rfl
@[simp] theorem State.setTariff_tariff :
    (s.setTariff x).tariff = x := rfl
@[simp] theorem State.setTariff_links :
    (s.setTariff x).links = s.links := rfl
@[simp] theorem State.setTariff_holdTime :
    (s.setTariff x).holdTime = s.holdTime := rfl
@[simp] theorem State.setTariff_queue :
    (s.setTariff x).queue = s.queue := rfl
@[simp] theorem State.setTariff_channels :
    (s.setTariff x).channels = s.channels := rfl
@[simp] theorem State.setTariff_sweep :
    (s.setTariff x).sweep = s.sweep := rfl
@[simp] theorem State.setTariff_slots :
    (s.setTariff x).slots = s.slots := rfl
@[simp] theorem State.setTariff_directory :
    (s.setTariff x).directory = s.directory := rfl
@[simp] theorem State.setTariff_attention :
    (s.setTariff x).attention = s.attention := rfl
@[simp] theorem State.setTariff_port :
    (s.setTariff x).port = s.port := rfl
@[simp] theorem State.setTariff_pending :
    (s.setTariff x).pending = s.pending := rfl

end

/-! ## setLinks -/

section
variable (x : Vector Link 4) (s : State)

@[simp] theorem State.setLinks_device :
    (s.setLinks x).device = s.device := rfl
@[simp] theorem State.setLinks_clock :
    (s.setLinks x).clock = s.clock := rfl
@[simp] theorem State.setLinks_tariff :
    (s.setLinks x).tariff = s.tariff := rfl
@[simp] theorem State.setLinks_links :
    (s.setLinks x).links = x := rfl
@[simp] theorem State.setLinks_holdTime :
    (s.setLinks x).holdTime = s.holdTime := rfl
@[simp] theorem State.setLinks_queue :
    (s.setLinks x).queue = s.queue := rfl
@[simp] theorem State.setLinks_channels :
    (s.setLinks x).channels = s.channels := rfl
@[simp] theorem State.setLinks_sweep :
    (s.setLinks x).sweep = s.sweep := rfl
@[simp] theorem State.setLinks_slots :
    (s.setLinks x).slots = s.slots := rfl
@[simp] theorem State.setLinks_directory :
    (s.setLinks x).directory = s.directory := rfl
@[simp] theorem State.setLinks_attention :
    (s.setLinks x).attention = s.attention := rfl
@[simp] theorem State.setLinks_port :
    (s.setLinks x).port = s.port := rfl
@[simp] theorem State.setLinks_pending :
    (s.setLinks x).pending = s.pending := rfl

end

/-! ## setHoldTime -/

section
variable (x : Nat) (s : State)

@[simp] theorem State.setHoldTime_device :
    (s.setHoldTime x).device = s.device := rfl
@[simp] theorem State.setHoldTime_clock :
    (s.setHoldTime x).clock = s.clock := rfl
@[simp] theorem State.setHoldTime_tariff :
    (s.setHoldTime x).tariff = s.tariff := rfl
@[simp] theorem State.setHoldTime_links :
    (s.setHoldTime x).links = s.links := rfl
@[simp] theorem State.setHoldTime_holdTime :
    (s.setHoldTime x).holdTime = x := rfl
@[simp] theorem State.setHoldTime_queue :
    (s.setHoldTime x).queue = s.queue := rfl
@[simp] theorem State.setHoldTime_channels :
    (s.setHoldTime x).channels = s.channels := rfl
@[simp] theorem State.setHoldTime_sweep :
    (s.setHoldTime x).sweep = s.sweep := rfl
@[simp] theorem State.setHoldTime_slots :
    (s.setHoldTime x).slots = s.slots := rfl
@[simp] theorem State.setHoldTime_directory :
    (s.setHoldTime x).directory = s.directory := rfl
@[simp] theorem State.setHoldTime_attention :
    (s.setHoldTime x).attention = s.attention := rfl
@[simp] theorem State.setHoldTime_port :
    (s.setHoldTime x).port = s.port := rfl
@[simp] theorem State.setHoldTime_pending :
    (s.setHoldTime x).pending = s.pending := rfl

end

/-! ## setQueue -/

section
variable (x : IntakeQueue) (s : State)

@[simp] theorem State.setQueue_device :
    (s.setQueue x).device = s.device := rfl
@[simp] theorem State.setQueue_clock :
    (s.setQueue x).clock = s.clock := rfl
@[simp] theorem State.setQueue_tariff :
    (s.setQueue x).tariff = s.tariff := rfl
@[simp] theorem State.setQueue_links :
    (s.setQueue x).links = s.links := rfl
@[simp] theorem State.setQueue_holdTime :
    (s.setQueue x).holdTime = s.holdTime := rfl
@[simp] theorem State.setQueue_queue :
    (s.setQueue x).queue = x := rfl
@[simp] theorem State.setQueue_channels :
    (s.setQueue x).channels = s.channels := rfl
@[simp] theorem State.setQueue_sweep :
    (s.setQueue x).sweep = s.sweep := rfl
@[simp] theorem State.setQueue_slots :
    (s.setQueue x).slots = s.slots := rfl
@[simp] theorem State.setQueue_directory :
    (s.setQueue x).directory = s.directory := rfl
@[simp] theorem State.setQueue_attention :
    (s.setQueue x).attention = s.attention := rfl
@[simp] theorem State.setQueue_port :
    (s.setQueue x).port = s.port := rfl
@[simp] theorem State.setQueue_pending :
    (s.setQueue x).pending = s.pending := rfl

end

/-! ## setChannels -/

section
variable (x : Vector Channel 16) (s : State)

@[simp] theorem State.setChannels_device :
    (s.setChannels x).device = s.device := rfl
@[simp] theorem State.setChannels_clock :
    (s.setChannels x).clock = s.clock := rfl
@[simp] theorem State.setChannels_tariff :
    (s.setChannels x).tariff = s.tariff := rfl
@[simp] theorem State.setChannels_links :
    (s.setChannels x).links = s.links := rfl
@[simp] theorem State.setChannels_holdTime :
    (s.setChannels x).holdTime = s.holdTime := rfl
@[simp] theorem State.setChannels_queue :
    (s.setChannels x).queue = s.queue := rfl
@[simp] theorem State.setChannels_channels :
    (s.setChannels x).channels = x := rfl
@[simp] theorem State.setChannels_sweep :
    (s.setChannels x).sweep = s.sweep := rfl
@[simp] theorem State.setChannels_slots :
    (s.setChannels x).slots = s.slots := rfl
@[simp] theorem State.setChannels_directory :
    (s.setChannels x).directory = s.directory := rfl
@[simp] theorem State.setChannels_attention :
    (s.setChannels x).attention = s.attention := rfl
@[simp] theorem State.setChannels_port :
    (s.setChannels x).port = s.port := rfl
@[simp] theorem State.setChannels_pending :
    (s.setChannels x).pending = s.pending := rfl

end

/-! ## setSweep -/

section
variable (x : Sweep) (s : State)

@[simp] theorem State.setSweep_device :
    (s.setSweep x).device = s.device := rfl
@[simp] theorem State.setSweep_clock :
    (s.setSweep x).clock = s.clock := rfl
@[simp] theorem State.setSweep_tariff :
    (s.setSweep x).tariff = s.tariff := rfl
@[simp] theorem State.setSweep_links :
    (s.setSweep x).links = s.links := rfl
@[simp] theorem State.setSweep_holdTime :
    (s.setSweep x).holdTime = s.holdTime := rfl
@[simp] theorem State.setSweep_queue :
    (s.setSweep x).queue = s.queue := rfl
@[simp] theorem State.setSweep_channels :
    (s.setSweep x).channels = s.channels := rfl
@[simp] theorem State.setSweep_sweep :
    (s.setSweep x).sweep = x := rfl
@[simp] theorem State.setSweep_slots :
    (s.setSweep x).slots = s.slots := rfl
@[simp] theorem State.setSweep_directory :
    (s.setSweep x).directory = s.directory := rfl
@[simp] theorem State.setSweep_attention :
    (s.setSweep x).attention = s.attention := rfl
@[simp] theorem State.setSweep_port :
    (s.setSweep x).port = s.port := rfl
@[simp] theorem State.setSweep_pending :
    (s.setSweep x).pending = s.pending := rfl

end

/-! ## setSlots -/

section
variable (x : Vector Account 32) (s : State)

@[simp] theorem State.setSlots_device :
    (s.setSlots x).device = s.device := rfl
@[simp] theorem State.setSlots_clock :
    (s.setSlots x).clock = s.clock := rfl
@[simp] theorem State.setSlots_tariff :
    (s.setSlots x).tariff = s.tariff := rfl
@[simp] theorem State.setSlots_links :
    (s.setSlots x).links = s.links := rfl
@[simp] theorem State.setSlots_holdTime :
    (s.setSlots x).holdTime = s.holdTime := rfl
@[simp] theorem State.setSlots_queue :
    (s.setSlots x).queue = s.queue := rfl
@[simp] theorem State.setSlots_channels :
    (s.setSlots x).channels = s.channels := rfl
@[simp] theorem State.setSlots_sweep :
    (s.setSlots x).sweep = s.sweep := rfl
@[simp] theorem State.setSlots_slots :
    (s.setSlots x).slots = x := rfl
@[simp] theorem State.setSlots_directory :
    (s.setSlots x).directory = s.directory := rfl
@[simp] theorem State.setSlots_attention :
    (s.setSlots x).attention = s.attention := rfl
@[simp] theorem State.setSlots_port :
    (s.setSlots x).port = s.port := rfl
@[simp] theorem State.setSlots_pending :
    (s.setSlots x).pending = s.pending := rfl

end

/-! ## setDirectory -/

section
variable (x : List DirectoryEntry) (s : State)

@[simp] theorem State.setDirectory_device :
    (s.setDirectory x).device = s.device := rfl
@[simp] theorem State.setDirectory_clock :
    (s.setDirectory x).clock = s.clock := rfl
@[simp] theorem State.setDirectory_tariff :
    (s.setDirectory x).tariff = s.tariff := rfl
@[simp] theorem State.setDirectory_links :
    (s.setDirectory x).links = s.links := rfl
@[simp] theorem State.setDirectory_holdTime :
    (s.setDirectory x).holdTime = s.holdTime := rfl
@[simp] theorem State.setDirectory_queue :
    (s.setDirectory x).queue = s.queue := rfl
@[simp] theorem State.setDirectory_channels :
    (s.setDirectory x).channels = s.channels := rfl
@[simp] theorem State.setDirectory_sweep :
    (s.setDirectory x).sweep = s.sweep := rfl
@[simp] theorem State.setDirectory_slots :
    (s.setDirectory x).slots = s.slots := rfl
@[simp] theorem State.setDirectory_directory :
    (s.setDirectory x).directory = x := rfl
@[simp] theorem State.setDirectory_attention :
    (s.setDirectory x).attention = s.attention := rfl
@[simp] theorem State.setDirectory_port :
    (s.setDirectory x).port = s.port := rfl
@[simp] theorem State.setDirectory_pending :
    (s.setDirectory x).pending = s.pending := rfl

end

/-! ## setAttention -/

section
variable (x : Attention) (s : State)

@[simp] theorem State.setAttention_device :
    (s.setAttention x).device = s.device := rfl
@[simp] theorem State.setAttention_clock :
    (s.setAttention x).clock = s.clock := rfl
@[simp] theorem State.setAttention_tariff :
    (s.setAttention x).tariff = s.tariff := rfl
@[simp] theorem State.setAttention_links :
    (s.setAttention x).links = s.links := rfl
@[simp] theorem State.setAttention_holdTime :
    (s.setAttention x).holdTime = s.holdTime := rfl
@[simp] theorem State.setAttention_queue :
    (s.setAttention x).queue = s.queue := rfl
@[simp] theorem State.setAttention_channels :
    (s.setAttention x).channels = s.channels := rfl
@[simp] theorem State.setAttention_sweep :
    (s.setAttention x).sweep = s.sweep := rfl
@[simp] theorem State.setAttention_slots :
    (s.setAttention x).slots = s.slots := rfl
@[simp] theorem State.setAttention_directory :
    (s.setAttention x).directory = s.directory := rfl
@[simp] theorem State.setAttention_attention :
    (s.setAttention x).attention = x := rfl
@[simp] theorem State.setAttention_port :
    (s.setAttention x).port = s.port := rfl
@[simp] theorem State.setAttention_pending :
    (s.setAttention x).pending = s.pending := rfl

end

/-! ## setPort -/

section
variable (x : Port) (s : State)

@[simp] theorem State.setPort_device :
    (s.setPort x).device = s.device := rfl
@[simp] theorem State.setPort_clock :
    (s.setPort x).clock = s.clock := rfl
@[simp] theorem State.setPort_tariff :
    (s.setPort x).tariff = s.tariff := rfl
@[simp] theorem State.setPort_links :
    (s.setPort x).links = s.links := rfl
@[simp] theorem State.setPort_holdTime :
    (s.setPort x).holdTime = s.holdTime := rfl
@[simp] theorem State.setPort_queue :
    (s.setPort x).queue = s.queue := rfl
@[simp] theorem State.setPort_channels :
    (s.setPort x).channels = s.channels := rfl
@[simp] theorem State.setPort_sweep :
    (s.setPort x).sweep = s.sweep := rfl
@[simp] theorem State.setPort_slots :
    (s.setPort x).slots = s.slots := rfl
@[simp] theorem State.setPort_directory :
    (s.setPort x).directory = s.directory := rfl
@[simp] theorem State.setPort_attention :
    (s.setPort x).attention = s.attention := rfl
@[simp] theorem State.setPort_port :
    (s.setPort x).port = x := rfl
@[simp] theorem State.setPort_pending :
    (s.setPort x).pending = s.pending := rfl

end

/-! ## setPending -/

section
variable (x : List Instr) (s : State)

@[simp] theorem State.setPending_device :
    (s.setPending x).device = s.device := rfl
@[simp] theorem State.setPending_clock :
    (s.setPending x).clock = s.clock := rfl
@[simp] theorem State.setPending_tariff :
    (s.setPending x).tariff = s.tariff := rfl
@[simp] theorem State.setPending_links :
    (s.setPending x).links = s.links := rfl
@[simp] theorem State.setPending_holdTime :
    (s.setPending x).holdTime = s.holdTime := rfl
@[simp] theorem State.setPending_queue :
    (s.setPending x).queue = s.queue := rfl
@[simp] theorem State.setPending_channels :
    (s.setPending x).channels = s.channels := rfl
@[simp] theorem State.setPending_sweep :
    (s.setPending x).sweep = s.sweep := rfl
@[simp] theorem State.setPending_slots :
    (s.setPending x).slots = s.slots := rfl
@[simp] theorem State.setPending_directory :
    (s.setPending x).directory = s.directory := rfl
@[simp] theorem State.setPending_attention :
    (s.setPending x).attention = s.attention := rfl
@[simp] theorem State.setPending_port :
    (s.setPending x).port = s.port := rfl
@[simp] theorem State.setPending_pending :
    (s.setPending x).pending = x := rfl

end

/-! ## setChannel, setSlot, mapChannels -/

section
variable (k : Fin 16) (c : Channel) (i : Fin 32) (a : Account)
variable (f : Fin 16 → Channel → Channel) (s : State)

@[simp] theorem State.setChannel_device :
    (s.setChannel k c).device = s.device := rfl
@[simp] theorem State.setChannel_clock :
    (s.setChannel k c).clock = s.clock := rfl
@[simp] theorem State.setChannel_tariff :
    (s.setChannel k c).tariff = s.tariff := rfl
@[simp] theorem State.setChannel_links :
    (s.setChannel k c).links = s.links := rfl
@[simp] theorem State.setChannel_holdTime :
    (s.setChannel k c).holdTime = s.holdTime := rfl
@[simp] theorem State.setChannel_queue :
    (s.setChannel k c).queue = s.queue := rfl
@[simp] theorem State.setChannel_channels :
    (s.setChannel k c).channels = s.channels.set k c := rfl
@[simp] theorem State.setChannel_sweep :
    (s.setChannel k c).sweep = s.sweep := rfl
@[simp] theorem State.setChannel_slots :
    (s.setChannel k c).slots = s.slots := rfl
@[simp] theorem State.setChannel_directory :
    (s.setChannel k c).directory = s.directory := rfl
@[simp] theorem State.setChannel_attention :
    (s.setChannel k c).attention = s.attention := rfl
@[simp] theorem State.setChannel_port :
    (s.setChannel k c).port = s.port := rfl
@[simp] theorem State.setChannel_pending :
    (s.setChannel k c).pending = s.pending := rfl
@[simp] theorem State.setSlot_device :
    (s.setSlot i a).device = s.device := rfl
@[simp] theorem State.setSlot_clock :
    (s.setSlot i a).clock = s.clock := rfl
@[simp] theorem State.setSlot_tariff :
    (s.setSlot i a).tariff = s.tariff := rfl
@[simp] theorem State.setSlot_links :
    (s.setSlot i a).links = s.links := rfl
@[simp] theorem State.setSlot_holdTime :
    (s.setSlot i a).holdTime = s.holdTime := rfl
@[simp] theorem State.setSlot_queue :
    (s.setSlot i a).queue = s.queue := rfl
@[simp] theorem State.setSlot_channels :
    (s.setSlot i a).channels = s.channels := rfl
@[simp] theorem State.setSlot_sweep :
    (s.setSlot i a).sweep = s.sweep := rfl
@[simp] theorem State.setSlot_slots :
    (s.setSlot i a).slots = s.slots.set i a := rfl
@[simp] theorem State.setSlot_directory :
    (s.setSlot i a).directory = s.directory := rfl
@[simp] theorem State.setSlot_attention :
    (s.setSlot i a).attention = s.attention := rfl
@[simp] theorem State.setSlot_port :
    (s.setSlot i a).port = s.port := rfl
@[simp] theorem State.setSlot_pending :
    (s.setSlot i a).pending = s.pending := rfl
@[simp] theorem State.mapChannels_device :
    (s.mapChannels f).device = s.device := rfl
@[simp] theorem State.mapChannels_clock :
    (s.mapChannels f).clock = s.clock := rfl
@[simp] theorem State.mapChannels_tariff :
    (s.mapChannels f).tariff = s.tariff := rfl
@[simp] theorem State.mapChannels_links :
    (s.mapChannels f).links = s.links := rfl
@[simp] theorem State.mapChannels_holdTime :
    (s.mapChannels f).holdTime = s.holdTime := rfl
@[simp] theorem State.mapChannels_queue :
    (s.mapChannels f).queue = s.queue := rfl
@[simp] theorem State.mapChannels_channels :
    (s.mapChannels f).channels = Vector.ofFn fun k => f k s.channels[k] := rfl
@[simp] theorem State.mapChannels_sweep :
    (s.mapChannels f).sweep = s.sweep := rfl
@[simp] theorem State.mapChannels_slots :
    (s.mapChannels f).slots = s.slots := rfl
@[simp] theorem State.mapChannels_directory :
    (s.mapChannels f).directory = s.directory := rfl
@[simp] theorem State.mapChannels_attention :
    (s.mapChannels f).attention = s.attention := rfl
@[simp] theorem State.mapChannels_port :
    (s.mapChannels f).port = s.port := rfl
@[simp] theorem State.mapChannels_pending :
    (s.mapChannels f).pending = s.pending := rfl

end

/-! ## latch, answer, withPending -/

section
variable (k : AttnKind) (n : Nat) (r : State × Response) (w : List Instr) (s : State)

@[simp] theorem State.latch_device :
    (s.latch k n).device = s.device := rfl
@[simp] theorem State.latch_clock :
    (s.latch k n).clock = s.clock := rfl
@[simp] theorem State.latch_tariff :
    (s.latch k n).tariff = s.tariff := rfl
@[simp] theorem State.latch_links :
    (s.latch k n).links = s.links := rfl
@[simp] theorem State.latch_holdTime :
    (s.latch k n).holdTime = s.holdTime := rfl
@[simp] theorem State.latch_queue :
    (s.latch k n).queue = s.queue := rfl
@[simp] theorem State.latch_channels :
    (s.latch k n).channels = s.channels := rfl
@[simp] theorem State.latch_sweep :
    (s.latch k n).sweep = s.sweep := rfl
@[simp] theorem State.latch_slots :
    (s.latch k n).slots = s.slots := rfl
@[simp] theorem State.latch_directory :
    (s.latch k n).directory = s.directory := rfl
@[simp] theorem State.latch_attention :
    (s.latch k n).attention = { s.attention with
      pendingSet := insertPair ⟨k, n⟩ s.attention.pendingSet } := rfl
@[simp] theorem State.latch_port :
    (s.latch k n).port = s.port := rfl
@[simp] theorem State.latch_pending :
    (s.latch k n).pending = s.pending := rfl
@[simp] theorem answer_device :
    (answer r).device = r.1.device := rfl
@[simp] theorem answer_clock :
    (answer r).clock = r.1.clock := rfl
@[simp] theorem answer_tariff :
    (answer r).tariff = r.1.tariff := rfl
@[simp] theorem answer_links :
    (answer r).links = r.1.links := rfl
@[simp] theorem answer_holdTime :
    (answer r).holdTime = r.1.holdTime := rfl
@[simp] theorem answer_queue :
    (answer r).queue = r.1.queue := rfl
@[simp] theorem answer_channels :
    (answer r).channels = r.1.channels := rfl
@[simp] theorem answer_sweep :
    (answer r).sweep = r.1.sweep := rfl
@[simp] theorem answer_slots :
    (answer r).slots = r.1.slots := rfl
@[simp] theorem answer_directory :
    (answer r).directory = r.1.directory := rfl
@[simp] theorem answer_attention :
    (answer r).attention = r.1.attention := rfl
@[simp] theorem answer_port :
    (answer r).port = { r.1.port with state := .executing (.acted r.2) } := rfl
@[simp] theorem answer_pending :
    (answer r).pending = r.1.pending := rfl
@[simp] theorem State.withPending_device :
    (s.withPending w).device = s.device := rfl
@[simp] theorem State.withPending_clock :
    (s.withPending w).clock = s.clock := rfl
@[simp] theorem State.withPending_tariff :
    (s.withPending w).tariff = s.tariff := rfl
@[simp] theorem State.withPending_links :
    (s.withPending w).links = s.links := rfl
@[simp] theorem State.withPending_holdTime :
    (s.withPending w).holdTime = s.holdTime := rfl
@[simp] theorem State.withPending_queue :
    (s.withPending w).queue = s.queue := rfl
@[simp] theorem State.withPending_channels :
    (s.withPending w).channels = s.channels := rfl
@[simp] theorem State.withPending_sweep :
    (s.withPending w).sweep = s.sweep := rfl
@[simp] theorem State.withPending_slots :
    (s.withPending w).slots = s.slots := rfl
@[simp] theorem State.withPending_directory :
    (s.withPending w).directory = s.directory := rfl
@[simp] theorem State.withPending_attention :
    (s.withPending w).attention = s.attention := rfl
@[simp] theorem State.withPending_port :
    (s.withPending w).port = s.port := rfl
@[simp] theorem State.withPending_pending :
    (s.withPending w).pending = w := rfl

end

/-! ## awake -/

section
variable (s : State)

@[simp] theorem State.setClock_awake (x : Clock) : (s.setClock x).awake = s.awake := rfl
@[simp] theorem State.setTariff_awake (x : Tariff) : (s.setTariff x).awake = s.awake := rfl
@[simp] theorem State.setLinks_awake (x : Vector Link 4) : (s.setLinks x).awake = s.awake := rfl
@[simp] theorem State.setHoldTime_awake (x : Nat) : (s.setHoldTime x).awake = s.awake := rfl
@[simp] theorem State.setQueue_awake (x : IntakeQueue) : (s.setQueue x).awake = s.awake := rfl
@[simp] theorem State.setChannels_awake (x : Vector Channel 16) : (s.setChannels x).awake = s.awake := rfl
@[simp] theorem State.setSweep_awake (x : Sweep) : (s.setSweep x).awake = s.awake := rfl
@[simp] theorem State.setSlots_awake (x : Vector Account 32) : (s.setSlots x).awake = s.awake := rfl
@[simp] theorem State.setDirectory_awake (x : List DirectoryEntry) : (s.setDirectory x).awake = s.awake := rfl
@[simp] theorem State.setAttention_awake (x : Attention) : (s.setAttention x).awake = s.awake := rfl
@[simp] theorem State.setPort_awake (x : Port) : (s.setPort x).awake = s.awake := rfl
@[simp] theorem State.setPending_awake (x : List Instr) : (s.setPending x).awake = s.awake := rfl
@[simp] theorem State.latch_awake (k : AttnKind) (n : Nat) : (s.latch k n).awake = s.awake := rfl
@[simp] theorem State.setChannel_awake (k : Fin 16) (c : Channel) :
    (s.setChannel k c).awake = s.awake := rfl
@[simp] theorem State.setSlot_awake (i : Fin 32) (a : Account) :
    (s.setSlot i a).awake = s.awake := rfl
@[simp] theorem State.mapChannels_awake (f : Fin 16 → Channel → Channel) :
    (s.mapChannels f).awake = s.awake := rfl

end

end Sys2Proof.Machine
end

