-- ==== Sys2Proof/Laws/Attention.lean ====
section
/-!
SUPPORT. The attention unit's set: what `insertPair`, `latch` and `latchAll` add, and that they keep
the set sound (R162 to R165).
-/

namespace Sys2Proof.Machine

/-! ## The pending set -/

@[simp] theorem mem_insertPair (p q : AttnPair) (l : List AttnPair) :
    q ∈ insertPair p l ↔ q = p ∨ q ∈ l := by
  induction l with
  | nil => simp [insertPair]
  | cons x xs ih =>
    simp only [insertPair]
    split
    · next h => subst h; simp
    · split
      · simp
      · simp only [List.mem_cons, ih]; tauto

theorem takingOrder_iff (l : List AttnPair) :
    takingOrder l = true ↔ l.Pairwise fun p q => p.key < q.key := by
  induction l with
  | nil => simp [takingOrder]
  | cons p l ih =>
    cases l with
    | nil => simp [takingOrder]
    | cons q rest =>
      simp only [takingOrder, Bool.and_eq_true, decide_eq_true_eq, ih, List.pairwise_cons,
        List.mem_cons, forall_eq_or_imp]
      constructor
      · rintro ⟨h, h1, h2⟩
        exact ⟨⟨h, fun x hx => h.trans (h1 x hx)⟩, h1, h2⟩
      · rintro ⟨⟨h, _⟩, h1, h2⟩
        exact ⟨h, h1, h2⟩

theorem AttnKind.rank_injective {a b : AttnKind} (h : a.rank = b.rank) : a = b := by
  cases a <;> cases b <;> first | rfl | (exact absurd h (by decide))

theorem AttnKind.sources_le (k : AttnKind) : k.sources ≤ 32 := by cases k <;> decide

theorem AttnKind.rank_le (k : AttnKind) : k.rank ≤ 15 := by cases k <;> decide

/-- Two pairs in range with one key are one pair. -/
theorem AttnPair.key_injective {p q : AttnPair} (hp : p.inRange = true) (hq : q.inRange = true)
    (h : p.key = q.key) : p = q := by
  have hs := p.kind.sources_le
  have ht := q.kind.sources_le
  have hr := p.kind.rank_le
  have hu := q.kind.rank_le
  simp only [AttnPair.inRange, decide_eq_true_eq] at hp hq
  simp only [AttnPair.key] at h
  have h1 : p.kind.rank = q.kind.rank := by omega
  have h2 : p.source = q.source := by omega
  cases p; cases q
  simp only [AttnPair.mk.injEq]
  exact ⟨AttnKind.rank_injective h1, h2⟩

theorem insertPair_inRange {p : AttnPair} {l : List AttnPair} (hp : p.inRange = true)
    (hl : l.all AttnPair.inRange = true) : (insertPair p l).all AttnPair.inRange = true := by
  simp only [List.all_eq_true, mem_insertPair] at hl ⊢
  rintro q (rfl | hq)
  · exact hp
  · exact hl q hq

theorem insertPair_ordered {p : AttnPair} {l : List AttnPair} (hp : p.inRange = true)
    (hr : l.all AttnPair.inRange = true) (hl : l.Pairwise fun p q => p.key < q.key) :
    (insertPair p l).Pairwise fun p q => p.key < q.key := by
  induction l with
  | nil => simp [insertPair]
  | cons x xs ih =>
    simp only [List.all_cons, Bool.and_eq_true] at hr
    have hl' := hl
    rw [List.pairwise_cons] at hl'
    simp only [insertPair]
    split
    · exact hl
    · next hne =>
      split
      · next hlt =>
        rw [List.pairwise_cons]
        refine ⟨?_, hl⟩
        intro y hy
        rcases List.mem_cons.1 hy with rfl | hy
        · exact hlt
        · exact hlt.trans (hl'.1 y hy)
      · next hge =>
        have hx : x.key < p.key := by
          rcases Nat.lt_or_ge x.key p.key with h | h
          · exact h
          · exact absurd (AttnPair.key_injective hp hr.1 (by omega)) hne
        rw [List.pairwise_cons]
        refine ⟨?_, ih hr.2 hl'.2⟩
        intro y hy
        rcases (mem_insertPair p y xs).1 hy with rfl | hy
        · exact hx
        · exact hl'.1 y hy

theorem insertPair_sound {p : AttnPair} {l : List AttnPair} (mask : Half)
    (hp : p.inRange = true) (h : Attention.sound ⟨l, mask⟩ = true) (mask' : Half) :
    Attention.sound ⟨insertPair p l, mask'⟩ = true := by
  simp only [Attention.sound, Bool.and_eq_true, takingOrder_iff] at h ⊢
  exact ⟨insertPair_inRange hp h.1, insertPair_ordered hp h.1 h.2⟩

/-- A part of a sound set is sound. -/
theorem Attention.sound_filter (f : AttnPair → Bool) {a : Attention} (mask : Half)
    (h : a.sound = true) : Attention.sound ⟨a.pendingSet.filter f, mask⟩ = true := by
  simp only [Attention.sound, Bool.and_eq_true, takingOrder_iff, List.all_eq_true,
    List.mem_filter] at h ⊢
  exact ⟨fun p hp => h.1 p hp.1, h.2.sublist List.filter_sublist⟩

theorem Attention.sound_mask (mask : Half) (a : Attention) :
    Attention.sound ⟨a.pendingSet, mask⟩ = a.sound := rfl

/-! ## latch and latchAll -/

theorem State.mem_latch (k : AttnKind) (n : Nat) (q : AttnPair) (s : State) :
    q ∈ (s.latch k n).attention.pendingSet ↔
      q = ⟨k, n⟩ ∨ q ∈ s.attention.pendingSet := by simp

theorem State.latch_sound {k : AttnKind} {n : Nat} {s : State} (hn : n < k.sources)
    (h : s.attention.sound = true) : (s.latch k n).attention.sound = true :=
  insertPair_sound s.attention.mask (by simpa [AttnPair.inRange] using hn) h _

theorem State.latchAll_nil (n : Nat) (s : State) : s.latchAll [] n = s := rfl

theorem State.latchAll_cons (k : AttnKind) (ks : List AttnKind) (n : Nat) (s : State) :
    s.latchAll (k :: ks) n = (s.latch k n).latchAll ks n := rfl

/-- `latchAll` reaches the attention unit alone. -/
theorem State.latchAll_frame (ks : List AttnKind) (n : Nat) (s : State) :
    s.latchAll ks n = s.setAttention (s.latchAll ks n).attention := by
  induction ks generalizing s with
  | nil => rfl
  | cons k ks ih => rw [State.latchAll_cons, ih]; rfl

theorem State.mem_latchAll (ks : List AttnKind) (n : Nat) (q : AttnPair) (s : State) :
    q ∈ (s.latchAll ks n).attention.pendingSet ↔
      (q.kind ∈ ks ∧ q.source = n) ∨ q ∈ s.attention.pendingSet := by
  induction ks generalizing s with
  | nil => simp [State.latchAll_nil]
  | cons k ks ih =>
    rw [State.latchAll_cons, ih, State.mem_latch]
    cases q
    simp only [AttnPair.mk.injEq, List.mem_cons]
    tauto

@[simp] theorem State.latchAll_mask (ks : List AttnKind) (n : Nat) (s : State) :
    (s.latchAll ks n).attention.mask = s.attention.mask := by
  induction ks generalizing s with
  | nil => rfl
  | cons k ks ih => rw [State.latchAll_cons, ih]; rfl

theorem State.latchAll_sound {ks : List AttnKind} {n : Nat} {s : State}
    (hn : ∀ k ∈ ks, n < k.sources) (h : s.attention.sound = true) :
    (s.latchAll ks n).attention.sound = true := by
  induction ks generalizing s with
  | nil => exact h
  | cons k ks ih =>
    rw [State.latchAll_cons]
    exact ih (fun j hj => hn j (by simp [hj])) (State.latch_sound (hn k (by simp)) h)

section
variable (ks : List AttnKind) (n : Nat) (s : State)

@[simp] theorem State.latchAll_device : (s.latchAll ks n).device = s.device := by
  rw [State.latchAll_frame]; rfl
@[simp] theorem State.latchAll_clock : (s.latchAll ks n).clock = s.clock := by
  rw [State.latchAll_frame]; rfl
@[simp] theorem State.latchAll_tariff : (s.latchAll ks n).tariff = s.tariff := by
  rw [State.latchAll_frame]; rfl
@[simp] theorem State.latchAll_links : (s.latchAll ks n).links = s.links := by
  rw [State.latchAll_frame]; rfl
@[simp] theorem State.latchAll_holdTime : (s.latchAll ks n).holdTime = s.holdTime := by
  rw [State.latchAll_frame]; rfl
@[simp] theorem State.latchAll_queue : (s.latchAll ks n).queue = s.queue := by
  rw [State.latchAll_frame]; rfl
@[simp] theorem State.latchAll_channels : (s.latchAll ks n).channels = s.channels := by
  rw [State.latchAll_frame]; rfl
@[simp] theorem State.latchAll_sweep : (s.latchAll ks n).sweep = s.sweep := by
  rw [State.latchAll_frame]; rfl
@[simp] theorem State.latchAll_slots : (s.latchAll ks n).slots = s.slots := by
  rw [State.latchAll_frame]; rfl
@[simp] theorem State.latchAll_directory : (s.latchAll ks n).directory = s.directory := by
  rw [State.latchAll_frame]; rfl
@[simp] theorem State.latchAll_port : (s.latchAll ks n).port = s.port := by
  rw [State.latchAll_frame]; rfl
@[simp] theorem State.latchAll_pending : (s.latchAll ks n).pending = s.pending := by
  rw [State.latchAll_frame]; rfl

end

/-! ## The first enabled pair (R165) -/

/-- In a sound set, a pair whose key no enabled pair's key precedes is the first enabled one. -/
theorem find?_eq_of_least {f : AttnPair → Bool} {p : AttnPair} {l : List AttnPair}
    (hl : l.Pairwise fun p q => p.key < q.key) (hp : p ∈ l) (hf : f p = true)
    (hmin : ∀ q ∈ l, f q = true → p.key ≤ q.key) : l.find? f = some p := by
  induction l with
  | nil => simp at hp
  | cons x xs ih =>
    rw [List.pairwise_cons] at hl
    rcases List.mem_cons.1 hp with rfl | hp
    · simp [hf]
    · have hx : f x = false := by
        by_contra hc
        have h1 := hmin x (by simp) (by simpa using hc)
        have h2 := hl.1 p hp
        omega
      rw [List.find?_cons_of_neg (by simp [hx])]
      exact ih hl.2 hp fun q hq => hmin q (by simp [hq])

end Sys2Proof.Machine
end

