-- ==== Sys2Proof/Laws/Links.lean ====
section
/-!
SUPPORT. Links: what `changeLink` and `eachLink` leave in every field (R74), and that each operation
of a link's transmitter and flow control keeps the link record sound (R67 to R73).
-/

namespace Sys2Proof.Machine

/-! ## changeLink -/

/-- The channel record once its link's flow state has gone from `was` to `now` (R74). -/
def retimed (was now : Bool) (c : Channel) : Channel :=
  if was && !now then freezeTimer c else if !was && now then reloadTimer true c else c

@[simp] theorem retimed_same (b : Bool) (c : Channel) : retimed b b c = c := by
  cases b <;> rfl

@[simp] theorem State.changeLink_links (n : Fin 4) (l : Link) (s : State) :
    (s.changeLink n l).links = s.links.set n l := by
  simp only [State.changeLink]; split
  · rfl
  · split <;> rfl

theorem State.changeLink_channel (n : Fin 4) (l : Link) (s : State) (k : Fin 16) :
    (s.changeLink n l).channels[k] =
      if linkOf k = n then retimed (s.flowing n) (decide (l.flow = .flowing)) s.channels[k]
      else s.channels[k] := by
  simp only [State.changeLink, retimed]
  split
  · simp
  · split
    · simp
    · simp

/-- `changeLink` reaches the links and the channels alone. -/
theorem State.changeLink_frame (n : Fin 4) (l : Link) (s : State) :
    s.changeLink n l =
      (s.setLinks (s.links.set n l)).setChannels (s.changeLink n l).channels := by
  simp only [State.changeLink]; split
  · rfl
  · split <;> rfl

/-- A change that keeps the flow state reaches the links alone. -/
theorem State.changeLink_sameFlow {n : Fin 4} {l : Link} {s : State}
    (h : l.flow = s.links[n].flow) : s.changeLink n l = s.setLinks (s.links.set n l) := by
  simp only [State.changeLink, State.flowing, h]
  cases decide (s.links[n].flow = FlowState.flowing) <;> rfl

section
variable (n : Fin 4) (l : Link) (s : State)

@[simp] theorem State.changeLink_device : (s.changeLink n l).device = s.device := by
  rw [State.changeLink_frame]; rfl
@[simp] theorem State.changeLink_clock : (s.changeLink n l).clock = s.clock := by
  rw [State.changeLink_frame]; rfl
@[simp] theorem State.changeLink_tariff : (s.changeLink n l).tariff = s.tariff := by
  rw [State.changeLink_frame]; rfl
@[simp] theorem State.changeLink_holdTime : (s.changeLink n l).holdTime = s.holdTime := by
  rw [State.changeLink_frame]; rfl
@[simp] theorem State.changeLink_queue : (s.changeLink n l).queue = s.queue := by
  rw [State.changeLink_frame]; rfl
@[simp] theorem State.changeLink_sweep : (s.changeLink n l).sweep = s.sweep := by
  rw [State.changeLink_frame]; rfl
@[simp] theorem State.changeLink_slots : (s.changeLink n l).slots = s.slots := by
  rw [State.changeLink_frame]; rfl
@[simp] theorem State.changeLink_directory : (s.changeLink n l).directory = s.directory := by
  rw [State.changeLink_frame]; rfl
@[simp] theorem State.changeLink_attention : (s.changeLink n l).attention = s.attention := by
  rw [State.changeLink_frame]; rfl
@[simp] theorem State.changeLink_port : (s.changeLink n l).port = s.port := by
  rw [State.changeLink_frame]; rfl
@[simp] theorem State.changeLink_pending : (s.changeLink n l).pending = s.pending := by
  rw [State.changeLink_frame]; rfl

end

/-- Whether a link is FLOWING after one link has changed. -/
theorem State.changeLink_flowing (n m : Fin 4) (l : Link) (s : State) :
    (s.changeLink n l).flowing m =
      if m = n then decide (l.flow = .flowing) else s.flowing m := by
  simp only [State.flowing, State.changeLink_links, Fin.getElem_fin, Vector.getElem_set]
  by_cases h : m = n
  · subst h; simp
  · have : ¬n.val = m.val := fun hc => h (Fin.ext hc.symm)
    simp [h, this]

/-! ## eachLink -/

theorem State.eachLink_unfold (f : Link → Link) (s : State) :
    s.eachLink f =
      ((((s.changeLink 0 (f s.links[0])).changeLink 1 (f s.links[1])).changeLink 2
        (f s.links[2])).changeLink 3 (f s.links[3])) := by
  simp [State.eachLink, linkNumbers]

theorem State.eachLink_link (f : Link → Link) (s : State) (n : Fin 4) :
    (s.eachLink f).links[n] = f s.links[n] := by
  rw [State.eachLink_unfold]
  simp only [State.changeLink_links]
  have : n = 0 ∨ n = 1 ∨ n = 2 ∨ n = 3 := by omega
  rcases this with rfl | rfl | rfl | rfl <;> simp

theorem State.eachLink_links (f : Link → Link) (s : State) :
    (s.eachLink f).links = Vector.ofFn fun n : Fin 4 => f s.links[n] := by
  ext1 i hi
  have := State.eachLink_link f s ⟨i, hi⟩
  simpa using this

/-- `eachLink` reaches the links and the channels alone. -/
theorem State.eachLink_frame (f : Link → Link) (s : State) :
    s.eachLink f =
      (s.setLinks (s.eachLink f).links).setChannels (s.eachLink f).channels := by
  rw [State.eachLink_unfold]
  rw [State.changeLink_frame 3, State.changeLink_frame 2, State.changeLink_frame 1,
    State.changeLink_frame 0]
  rfl

section
variable (f : Link → Link) (s : State)

@[simp] theorem State.eachLink_device : (s.eachLink f).device = s.device := by
  simp only [State.eachLink_unfold, State.changeLink_device]
@[simp] theorem State.eachLink_clock : (s.eachLink f).clock = s.clock := by
  simp only [State.eachLink_unfold, State.changeLink_clock]
@[simp] theorem State.eachLink_tariff : (s.eachLink f).tariff = s.tariff := by
  simp only [State.eachLink_unfold, State.changeLink_tariff]
@[simp] theorem State.eachLink_holdTime : (s.eachLink f).holdTime = s.holdTime := by
  simp only [State.eachLink_unfold, State.changeLink_holdTime]
@[simp] theorem State.eachLink_queue : (s.eachLink f).queue = s.queue := by
  simp only [State.eachLink_unfold, State.changeLink_queue]
@[simp] theorem State.eachLink_sweep : (s.eachLink f).sweep = s.sweep := by
  simp only [State.eachLink_unfold, State.changeLink_sweep]
@[simp] theorem State.eachLink_slots : (s.eachLink f).slots = s.slots := by
  simp only [State.eachLink_unfold, State.changeLink_slots]
@[simp] theorem State.eachLink_directory : (s.eachLink f).directory = s.directory := by
  simp only [State.eachLink_unfold, State.changeLink_directory]
@[simp] theorem State.eachLink_attention : (s.eachLink f).attention = s.attention := by
  simp only [State.eachLink_unfold, State.changeLink_attention]
@[simp] theorem State.eachLink_port : (s.eachLink f).port = s.port := by
  simp only [State.eachLink_unfold, State.changeLink_port]
@[simp] theorem State.eachLink_pending : (s.eachLink f).pending = s.pending := by
  simp only [State.eachLink_unfold, State.changeLink_pending]
@[simp] theorem State.eachLink_awake : (s.eachLink f).awake = s.awake := by
  simp only [State.awake, State.eachLink_device]
@[simp] theorem State.changeLink_awake (n : Fin 4) (l : Link) :
    (s.changeLink n l).awake = s.awake := by
  simp only [State.awake, State.changeLink_device]

end

/-- The channels after every link has changed: each as its own link's flow state went. -/
theorem State.eachLink_channel (f : Link → Link) (s : State) (k : Fin 16) :
    (s.eachLink f).channels[k] =
      retimed (s.flowing (linkOf k)) (decide ((f s.links[linkOf k]).flow = .flowing))
        s.channels[k] := by
  rw [State.eachLink_unfold]
  simp only [State.changeLink_channel, State.changeLink_flowing]
  have : linkOf k = 0 ∨ linkOf k = 1 ∨ linkOf k = 2 ∨ linkOf k = 3 := by omega
  rcases this with h | h | h | h <;> simp [h]

/-- A change of every link that keeps each flow state reaches the links alone. -/
theorem State.eachLink_sameFlow {f : Link → Link} (s : State)
    (h : ∀ l : Link, (f l).flow = l.flow) :
    s.eachLink f = s.setLinks (Vector.ofFn fun n : Fin 4 => f s.links[n]) := by
  rw [State.eachLink_frame, State.eachLink_links]
  have hc : (s.eachLink f).channels = s.channels := by
    ext1 i hi
    have := State.eachLink_channel f s ⟨i, hi⟩
    simpa [h, State.flowing] using this
  rw [hc]; rfl

/-! ## The presence timer's agreement with the link (R74, R80) -/

theorem retimed_state (was now : Bool) (c : Channel) : (retimed was now c).state = c.state := by
  simp only [retimed, freezeTimer, reloadTimer]
  split
  · split <;> rfl
  · split
    · split <;> rfl
    · rfl

theorem retimed_sound {was now : Bool} {c : Channel} (h : c.sound = true) :
    (retimed was now c).sound = true := by
  by_cases hu : c.state = .unregistered
  · cases was <;> cases now <;> simpa [retimed, freezeTimer, reloadTimer, hu] using h
  · cases was <;> cases now <;>
      simp [retimed, freezeTimer, reloadTimer, hu, Channel.sound, Channel.creditSound,
        Channel.timerSound, Channel.presenceSound] at h ⊢ <;>
      first
      | exact h
      | exact ⟨⟨h.1.1, by omega⟩, h.2⟩

/-- A registered channel's timer is FROZEN after the change exactly if its link is not FLOWING. -/
theorem retimed_frozen {was now : Bool} {c : Channel} (hu : c.state ≠ .unregistered)
    (h : decide (c.timerMode = .frozen) = !was) :
    decide ((retimed was now c).timerMode = .frozen) = !now := by
  cases was <;> cases now <;> simp_all [retimed, freezeTimer, reloadTimer]

theorem State.changeLink_timerAgrees {n : Fin 4} {l : Link} {s : State} {k : Fin 16}
    (h : s.timerAgrees k = true) : (s.changeLink n l).timerAgrees k = true := by
  simp only [State.timerAgrees, State.changeLink_awake, State.changeLink_flowing,
    State.changeLink_channel, Bool.or_eq_true, decide_eq_true_eq, beq_iff_eq] at h ⊢
  by_cases hn : linkOf k = n
  · simp only [hn, if_true, retimed_state] at h ⊢
    rcases h with h | h
    · exact Or.inl h
    · by_cases hu : s.channels[k].state = .unregistered
      · exact Or.inl (Or.inr hu)
      · exact Or.inr (retimed_frozen hu h)
  · simpa only [hn, if_false] using h

theorem State.eachLink_timerAgrees {f : Link → Link} {s : State} {k : Fin 16}
    (h : s.timerAgrees k = true) : (s.eachLink f).timerAgrees k = true := by
  rw [State.eachLink_unfold]
  exact State.changeLink_timerAgrees (State.changeLink_timerAgrees
    (State.changeLink_timerAgrees (State.changeLink_timerAgrees h)))

/-! ## Transmitter and flow control keep the link record sound (R67 to R73) -/

@[simp] theorem Link.beginNext_flow (h : Nat) (l : Link) : (l.beginNext h).flow = l.flow := by
  simp only [Link.beginNext]; split <;> rfl

@[simp] theorem Link.requestTime_flow (h : Nat) (r : TimeRequest) (l : Link) :
    (l.requestTime h r).flow = l.flow := by simp [Link.requestTime]

@[simp] theorem Link.clearMarks_flow (l : Link) : l.clearMarks.flow = l.flow := rfl

theorem Link.beginNext_receiver (h : Nat) (l : Link) :
    (l.beginNext h).receiverSound = l.receiverSound := by
  simp only [Link.beginNext]; split <;> rfl

theorem Link.sendControl_receiver (h : Nat) (f : ControlFrame) (w : FlowState) (l : Link) :
    (l.sendControl h f w).receiverSound = l.receiverSound := by
  rw [Link.sendControl, Link.beginNext_receiver]; rfl

theorem Link.requestTime_sound (h : Nat) (r : TimeRequest) {l : Link} (hl : l.sound = true) :
    (l.requestTime h r).sound = true := by
  simp only [Link.sound, Bool.and_eq_true] at hl ⊢
  refine ⟨⟨?_, ?_⟩, ?_⟩
  · refine Eq.trans ?_ hl.1.1
    rw [Link.requestTime, Link.beginNext_receiver]; rfl
  all_goals
    obtain ⟨⟨-, hf⟩, ht⟩ := hl
    rcases l with ⟨rx, col, ce, br, em, om, fl, wc, wt, tx, hti, lh⟩
    cases fl <;> rcases wc with _ | _ | _ <;> cases tx <;>
      simp_all [Link.requestTime, Link.beginNext, Link.flowSound, Link.transmitterSound,
        Link.holdUnderWay, Link.releaseUnderWay]

/-- R68: no link is FLOWING after a hold request. -/
theorem Link.holdRequest_flow (h : Nat) (l : Link) : (l.holdRequest h).flow ≠ .flowing := by
  simp only [Link.holdRequest, Link.sendControl, Link.beginNext]
  repeat' split
  all_goals simp_all

theorem Link.holdRequest_sound (h : Nat) {l : Link} (hl : l.sound = true) :
    (l.holdRequest h).sound = true := by
  simp only [Link.sound, Bool.and_eq_true] at hl ⊢
  refine ⟨⟨?_, ?_⟩, ?_⟩
  · refine Eq.trans ?_ hl.1.1
    simp only [Link.holdRequest]
    repeat' split
    all_goals first | rfl | exact Link.sendControl_receiver ..
  all_goals
    obtain ⟨⟨-, hf⟩, ht⟩ := hl
    rcases l with ⟨rx, col, ce, br, em, om, fl, wc, wt, tx, hti, lh⟩
    cases hp : Link.refreshPassed ⟨rx, col, ce, br, em, om, fl, wc, wt, tx, hti, lh⟩ <;>
      cases fl <;> rcases wc with _ | _ | _ <;> cases tx <;>
      simp_all [Link.holdRequest, Link.sendControl, Link.beginNext, Link.flowSound,
        Link.transmitterSound, Link.holdUnderWay, Link.releaseUnderWay]

theorem Link.releaseRequest_sound (h : Nat) {l : Link} (hl : l.sound = true) :
    (l.releaseRequest h).sound = true := by
  simp only [Link.sound, Bool.and_eq_true] at hl ⊢
  refine ⟨⟨?_, ?_⟩, ?_⟩
  · refine Eq.trans ?_ hl.1.1
    simp only [Link.releaseRequest]
    repeat' split
    all_goals first | rfl | exact Link.sendControl_receiver ..
  all_goals
    obtain ⟨⟨-, hf⟩, ht⟩ := hl
    rcases l with ⟨rx, col, ce, br, em, om, fl, wc, wt, tx, hti, lh⟩
    cases fl <;> rcases wc with _ | _ | _ <;> cases tx <;>
      simp_all [Link.releaseRequest, Link.sendControl, Link.beginNext, Link.flowSound,
        Link.transmitterSound, Link.holdUnderWay, Link.releaseUnderWay]

theorem Link.complete_sound (h : Nat) {l : Link} (hl : l.sound = true) :
    (l.complete h).sound = true := by
  simp only [Link.sound, Bool.and_eq_true] at hl ⊢
  refine ⟨⟨?_, ?_⟩, ?_⟩
  · refine Eq.trans ?_ hl.1.1
    simp only [Link.complete]
    split
    · rfl
    all_goals exact Link.beginNext_receiver ..
  all_goals
    obtain ⟨⟨-, hf⟩, ht⟩ := hl
    rcases l with ⟨rx, col, ce, br, em, om, fl, wc, wt, tx, hti, lh⟩
    cases fl <;> rcases wc with _ | _ | _ <;> cases tx <;> cases wt <;>
      simp_all [Link.complete, Link.beginNext, Link.flowSound, Link.transmitterSound,
        Link.holdUnderWay, Link.releaseUnderWay]

theorem Link.refresh_sound (h n : Nat) (c : Bool) {l : Link} (hl : l.sound = true) :
    (Link.refresh h c { l with holdTimer := some n }).sound = true := by
  simp only [Link.sound, Bool.and_eq_true] at hl ⊢
  refine ⟨⟨?_, ?_⟩, ?_⟩
  · refine Eq.trans ?_ hl.1.1
    simp only [Link.refresh]
    split
    · exact Link.sendControl_receiver ..
    · rfl
  all_goals
    obtain ⟨⟨-, hf⟩, ht⟩ := hl
    rcases l with ⟨rx, col, ce, br, em, om, fl, wc, wt, tx, hti, lh⟩
    cases fl <;> rcases wc with _ | _ | _ <;> cases tx <;> cases c <;>
      simp_all [Link.refresh, Link.sendControl, Link.beginNext, Link.flowSound,
        Link.transmitterSound, Link.holdUnderWay, Link.releaseUnderWay]

theorem Link.expire_sound {l : Link} (hl : l.sound = true) :
    (l.expire).sound = true := by
  simp only [Link.sound, Bool.and_eq_true] at hl ⊢
  refine ⟨⟨?_, ?_⟩, ?_⟩
  · refine Eq.trans ?_ hl.1.1
    simp only [Link.expire]
    split <;> rfl
  all_goals
    obtain ⟨⟨-, hf⟩, ht⟩ := hl
    rcases l with ⟨rx, col, ce, br, em, om, fl, wc, wt, tx, hti, lh⟩
    cases fl <;> rcases wc with _ | _ | _ <;> cases tx <;>
      simp_all [Link.expire, Link.flowSound, Link.transmitterSound,
        Link.holdUnderWay, Link.releaseUnderWay]

end Sys2Proof.Machine
end

