-- ==== Sys2Proof/Laws/Queue.lean ====
section
/-!
SUPPORT. The intake queue and the making of a boundary: what each operation leaves in every field,
and that it keeps queue, marker and held-marker flag in agreement (R33 to R35, R63 to R66, R108).
-/

namespace Sys2Proof.Machine

/-! ## noteMarkerAtHead -/

/-- `noteMarkerAtHead` reaches the sweep record and the attention unit alone. -/
theorem State.noteMarkerAtHead_cases (s : State) :
    (s.markerAtHead = true ∧ s.sweep.running = true ∧
      s.noteMarkerAtHead = (s.setSweep { s.sweep with heldMarker := true }).latch .sweepLate 0) ∨
    ((s.markerAtHead = false ∨ s.sweep.running = false) ∧ s.noteMarkerAtHead = s) := by
  simp only [State.noteMarkerAtHead]
  cases s.markerAtHead <;> cases s.sweep.running <;> simp

section
variable (s : State)

@[simp] theorem State.noteMarkerAtHead_device : s.noteMarkerAtHead.device = s.device := by
  simp only [State.noteMarkerAtHead]; split <;> rfl
@[simp] theorem State.noteMarkerAtHead_clock : s.noteMarkerAtHead.clock = s.clock := by
  simp only [State.noteMarkerAtHead]; split <;> rfl
@[simp] theorem State.noteMarkerAtHead_tariff : s.noteMarkerAtHead.tariff = s.tariff := by
  simp only [State.noteMarkerAtHead]; split <;> rfl
@[simp] theorem State.noteMarkerAtHead_links : s.noteMarkerAtHead.links = s.links := by
  simp only [State.noteMarkerAtHead]; split <;> rfl
@[simp] theorem State.noteMarkerAtHead_holdTime : s.noteMarkerAtHead.holdTime = s.holdTime := by
  simp only [State.noteMarkerAtHead]; split <;> rfl
@[simp] theorem State.noteMarkerAtHead_queue : s.noteMarkerAtHead.queue = s.queue := by
  simp only [State.noteMarkerAtHead]; split <;> rfl
@[simp] theorem State.noteMarkerAtHead_channels : s.noteMarkerAtHead.channels = s.channels := by
  simp only [State.noteMarkerAtHead]; split <;> rfl
@[simp] theorem State.noteMarkerAtHead_slots : s.noteMarkerAtHead.slots = s.slots := by
  simp only [State.noteMarkerAtHead]; split <;> rfl
@[simp] theorem State.noteMarkerAtHead_directory : s.noteMarkerAtHead.directory = s.directory := by
  simp only [State.noteMarkerAtHead]; split <;> rfl
@[simp] theorem State.noteMarkerAtHead_port : s.noteMarkerAtHead.port = s.port := by
  simp only [State.noteMarkerAtHead]; split <;> rfl
@[simp] theorem State.noteMarkerAtHead_pending : s.noteMarkerAtHead.pending = s.pending := by
  simp only [State.noteMarkerAtHead]; split <;> rfl
@[simp] theorem State.noteMarkerAtHead_mask :
    s.noteMarkerAtHead.attention.mask = s.attention.mask := by
  simp only [State.noteMarkerAtHead]; split <;> rfl
@[simp] theorem State.noteMarkerAtHead_awake : s.noteMarkerAtHead.awake = s.awake := by
  simp only [State.awake, State.noteMarkerAtHead_device]

theorem State.noteMarkerAtHead_sweep :
    s.noteMarkerAtHead.sweep =
      { s.sweep with heldMarker := s.sweep.heldMarker || (s.markerAtHead && s.sweep.running) } := by
  simp only [State.noteMarkerAtHead]
  split
  · next h => simp [h]
  · next h => rw [Bool.not_eq_true] at h; simp [h]

theorem State.mem_noteMarkerAtHead (q : AttnPair) :
    q ∈ s.noteMarkerAtHead.attention.pendingSet ↔
      (q = ⟨.sweepLate, 0⟩ ∧ s.markerAtHead = true ∧ s.sweep.running = true) ∨
        q ∈ s.attention.pendingSet := by
  rcases State.noteMarkerAtHead_cases s with ⟨h1, h2, h⟩ | ⟨h1, h⟩
  · simp [h, h1, h2]
  · rw [h]; rcases h1 with h1 | h1 <;> simp [h1]

theorem State.noteMarkerAtHead_attention {s : State} (h : s.attention.sound = true) :
    s.noteMarkerAtHead.attention.sound = true := by
  rcases State.noteMarkerAtHead_cases s with ⟨-, -, hs⟩ | ⟨-, hs⟩ <;> rw [hs]
  · exact State.latch_sound (by decide) h
  · exact h

end

/-! ## placeMarker and makeBoundary -/

section
variable (m : Marker) (t : CalTime) (kind : BoundaryKind) (s : State)

@[simp] theorem State.placeMarker_device : (s.placeMarker m).device = s.device := by
  simp only [State.placeMarker]; split <;> simp
@[simp] theorem State.placeMarker_tariff : (s.placeMarker m).tariff = s.tariff := by
  simp only [State.placeMarker]; split <;> simp
@[simp] theorem State.placeMarker_links : (s.placeMarker m).links = s.links := by
  simp only [State.placeMarker]; split <;> simp
@[simp] theorem State.placeMarker_holdTime : (s.placeMarker m).holdTime = s.holdTime := by
  simp only [State.placeMarker]; split <;> simp
@[simp] theorem State.placeMarker_channels : (s.placeMarker m).channels = s.channels := by
  simp only [State.placeMarker]; split <;> simp
@[simp] theorem State.placeMarker_slots : (s.placeMarker m).slots = s.slots := by
  simp only [State.placeMarker]; split <;> simp
@[simp] theorem State.placeMarker_directory : (s.placeMarker m).directory = s.directory := by
  simp only [State.placeMarker]; split <;> simp
@[simp] theorem State.placeMarker_port : (s.placeMarker m).port = s.port := by
  simp only [State.placeMarker]; split <;> simp
@[simp] theorem State.placeMarker_pending : (s.placeMarker m).pending = s.pending := by
  simp only [State.placeMarker]; split <;> simp
@[simp] theorem State.placeMarker_mask :
    (s.placeMarker m).attention.mask = s.attention.mask := by
  simp only [State.placeMarker]; split <;> simp
@[simp] theorem State.placeMarker_clock :
    (s.placeMarker m).clock = { s.clock with markerWaiting := true } := by
  simp only [State.placeMarker]; split
  · next h => cases hc : s.clock; simp_all
  · simp

theorem State.placeMarker_queue :
    (s.placeMarker m).queue =
      { s.queue with
        marker := if s.clock.markerWaiting = true then
            s.queue.marker.map fun q => { q with marker := { m with kind := .irregular } }
          else some ⟨m, s.queue.entries.length⟩ } := by
  simp only [State.placeMarker]; split <;> simp

theorem State.placeMarker_sweep :
    (s.placeMarker m).sweep =
      { s.sweep with
        heldMarker := s.sweep.heldMarker ||
          (!s.clock.markerWaiting && s.queue.entries.isEmpty && s.sweep.running) } := by
  simp only [State.placeMarker]; split
  · next h => simp [h]
  · next h =>
    rw [Bool.not_eq_true] at h
    rw [State.noteMarkerAtHead_sweep]
    simp only [State.setClock_sweep, State.setQueue_sweep, State.markerAtHead,
      State.setClock_queue, State.setQueue_queue, h, Bool.not_false, Bool.true_and]
    cases s.queue.entries <;> rfl

theorem State.mem_placeMarker (q : AttnPair) :
    q ∈ (s.placeMarker m).attention.pendingSet ↔
      (q = ⟨.clockIrregular, 0⟩ ∧ s.clock.markerWaiting = true) ∨
      (q = ⟨.sweepLate, 0⟩ ∧ s.clock.markerWaiting = false ∧ s.queue.entries = [] ∧
        s.sweep.running = true) ∨
      q ∈ s.attention.pendingSet := by
  simp only [State.placeMarker]; split
  · next h => simp [h]
  · next h =>
    rw [Bool.not_eq_true] at h
    rw [State.mem_noteMarkerAtHead]
    simp [h, State.markerAtHead]

theorem State.placeMarker_attention {s : State} (h : s.attention.sound = true) :
    (s.placeMarker m).attention.sound = true := by
  simp only [State.placeMarker]; split
  · exact State.latch_sound (by decide) h
  · exact State.noteMarkerAtHead_attention h

@[simp] theorem State.makeBoundary_device :
    (s.makeBoundary t kind).device = s.device := by simp [State.makeBoundary]
@[simp] theorem State.makeBoundary_tariff :
    (s.makeBoundary t kind).tariff = s.tariff := by simp [State.makeBoundary]
@[simp] theorem State.makeBoundary_holdTime :
    (s.makeBoundary t kind).holdTime = s.holdTime := by simp [State.makeBoundary]
@[simp] theorem State.makeBoundary_channels :
    (s.makeBoundary t kind).channels = s.channels := by
  simp only [State.makeBoundary]
  rw [State.eachLink_sameFlow _ fun l => Link.requestTime_flow _ _ l]
  simp
@[simp] theorem State.makeBoundary_slots :
    (s.makeBoundary t kind).slots = s.slots := by simp [State.makeBoundary]
@[simp] theorem State.makeBoundary_directory :
    (s.makeBoundary t kind).directory = s.directory := by simp [State.makeBoundary]
@[simp] theorem State.makeBoundary_port :
    (s.makeBoundary t kind).port = s.port := by simp [State.makeBoundary]
@[simp] theorem State.makeBoundary_pending :
    (s.makeBoundary t kind).pending = s.pending := by simp [State.makeBoundary]
@[simp] theorem State.makeBoundary_mask :
    (s.makeBoundary t kind).attention.mask = s.attention.mask := by simp [State.makeBoundary]
@[simp] theorem State.makeBoundary_awake :
    (s.makeBoundary t kind).awake = s.awake := by simp [State.awake]

@[simp] theorem State.makeBoundary_clock :
    (s.makeBoundary t kind).clock =
      { s.clock with
        boundaryNumber := s.clock.boundaryNumber + 1, lastBoundary := t,
        markerWaiting := true } := by
  simp [State.makeBoundary]

theorem State.makeBoundary_queue :
    (s.makeBoundary t kind).queue =
      { s.queue with
        marker := if s.clock.markerWaiting = true then
            s.queue.marker.map fun q =>
              { q with marker := ⟨s.clock.boundaryNumber + 1, t, .irregular⟩ }
          else some ⟨⟨s.clock.boundaryNumber + 1, t, kind⟩, s.queue.entries.length⟩ } := by
  simp only [State.makeBoundary, State.eachLink_queue, State.placeMarker_queue]; rfl

theorem State.makeBoundary_sweep :
    (s.makeBoundary t kind).sweep =
      { s.sweep with
        heldMarker := s.sweep.heldMarker ||
          (!s.clock.markerWaiting && s.queue.entries.isEmpty && s.sweep.running) } := by
  simp only [State.makeBoundary, State.eachLink_sweep, State.placeMarker_sweep]; rfl

theorem State.makeBoundary_links :
    (s.makeBoundary t kind).links =
      Vector.ofFn fun n : Fin 4 =>
        Link.requestTime s.holdTime ⟨t, (s.clock.boundaryNumber + 1).setWidth 8⟩ s.links[n] := by
  simp only [State.makeBoundary, State.eachLink_links, State.placeMarker_links,
    State.setClock_links]

theorem State.mem_makeBoundary (q : AttnPair) :
    q ∈ (s.makeBoundary t kind).attention.pendingSet ↔
      (q = ⟨.clockIrregular, 0⟩ ∧ s.clock.markerWaiting = true) ∨
      (q = ⟨.sweepLate, 0⟩ ∧ s.clock.markerWaiting = false ∧ s.queue.entries = [] ∧
        s.sweep.running = true) ∨
      q ∈ s.attention.pendingSet := by
  simp only [State.makeBoundary, State.eachLink_attention, State.mem_placeMarker]
  rfl

theorem State.makeBoundary_attention {s : State} (h : s.attention.sound = true) :
    (s.makeBoundary t kind).attention.sound = true := by
  simp only [State.makeBoundary, State.eachLink_attention]
  exact State.placeMarker_attention _ h

/-- R33 to R35, R108: making a boundary keeps queue, marker and sweep in agreement. -/
theorem State.makeBoundary_queueSound {s : State} (h : s.queueSound = true) :
    (s.makeBoundary t kind).queueSound = true := by
  simp only [State.queueSound, IntakeQueue.bounded, State.markerAgrees, State.heldAgrees,
    State.markerAtHead, State.makeBoundary_queue, State.makeBoundary_sweep,
    State.makeBoundary_clock] at h ⊢
  simp only [Bool.and_eq_true, beq_iff_eq, decide_eq_true_eq] at h ⊢
  obtain ⟨⟨⟨⟨hb, hp⟩, hm⟩, hh⟩, hs⟩ := h
  cases hw : s.clock.markerWaiting <;> rw [hw] at hm <;> cases hq : s.queue.marker with
  | none => ?_
  | some q => ?_
  · rw [hq] at hh
    have hh' : s.sweep.heldMarker = false := by simpa using hh
    refine ⟨⟨⟨⟨hb, by simp⟩, by simp⟩, ?_⟩, hs⟩
    cases he : s.queue.entries <;> simp [hh']
  · simp [hq] at hm
  · simp [hq] at hm
  · rw [hq] at hh hp
    exact ⟨⟨⟨⟨hb, by simpa using hp⟩, by simp⟩, by simpa using hh⟩, hs⟩

end

/-! ## offerFrame -/

section
variable (e : FrameEntry) (s : State)

@[simp] theorem State.offerFrame_device : (s.offerFrame e).device = s.device := by
  simp only [State.offerFrame]; split
  · split <;> simp
  · simp
@[simp] theorem State.offerFrame_clock : (s.offerFrame e).clock = s.clock := by
  simp only [State.offerFrame]; split
  · split <;> simp
  · simp
@[simp] theorem State.offerFrame_tariff : (s.offerFrame e).tariff = s.tariff := by
  simp only [State.offerFrame]; split
  · split <;> simp
  · simp
@[simp] theorem State.offerFrame_holdTime : (s.offerFrame e).holdTime = s.holdTime := by
  simp only [State.offerFrame]; split
  · split <;> simp
  · simp
@[simp] theorem State.offerFrame_sweep : (s.offerFrame e).sweep = s.sweep := by
  simp only [State.offerFrame]; split
  · split <;> simp
  · simp
@[simp] theorem State.offerFrame_slots : (s.offerFrame e).slots = s.slots := by
  simp only [State.offerFrame]; split
  · split <;> simp
  · simp
@[simp] theorem State.offerFrame_directory : (s.offerFrame e).directory = s.directory := by
  simp only [State.offerFrame]; split
  · split <;> simp
  · simp
@[simp] theorem State.offerFrame_port : (s.offerFrame e).port = s.port := by
  simp only [State.offerFrame]; split
  · split <;> simp
  · simp
@[simp] theorem State.offerFrame_pending : (s.offerFrame e).pending = s.pending := by
  simp only [State.offerFrame]; split
  · split <;> simp
  · simp
@[simp] theorem State.offerFrame_mask :
    (s.offerFrame e).attention.mask = s.attention.mask := by
  simp only [State.offerFrame]; split
  · split <;> simp
  · simp

/-- R64: a frame offered below 64 entries, which does not raise the congestion, is entered. -/
theorem State.offerFrame_entered {e : FrameEntry} {s : State}
    (hl : s.queue.entries.length < 64)
    (hc : s.queue.entries.length ≠ 47 ∨ s.queue.congested = true) :
    s.offerFrame e =
      s.setQueue { s.queue with entries := s.queue.entries ++ [e] } := by
  have hr : s.queue.entries.length < Config.queueCapacity := hl
  simp only [State.offerFrame, if_pos hr]
  rw [if_neg]
  simp only [State.setQueue_queue, Config.highMark, List.length_append, List.length_singleton]
  rintro ⟨h, h'⟩
  rcases hc with hc | hc
  · omega
  · rw [hc] at h'; cases h'

/-- R66: the frame that makes 48 entries raises the congestion. -/
theorem State.offerFrame_congesting {e : FrameEntry} {s : State}
    (hl : s.queue.entries.length = 47) (hc : s.queue.congested = false) :
    s.offerFrame e =
      (s.setQueue { s.queue with
        entries := s.queue.entries ++ [e], congested := true }).eachLink
          (Link.holdRequest s.holdTime) := by
  have hr : s.queue.entries.length < Config.queueCapacity := by
    simp only [Config.queueCapacity]; omega
  simp only [State.offerFrame, if_pos hr]
  rw [if_pos ⟨by simp [Config.highMark, hl], hc⟩]
  rfl

/-- R64: a frame offered at 64 entries is dropped. -/
theorem State.offerFrame_dropped {e : FrameEntry} {s : State}
    (hl : 64 ≤ s.queue.entries.length) :
    s.offerFrame e =
      (s.changeLink e.link { s.links[e.link] with overrunMark := true }).latch
        .queueOverrun e.link := by
  have hr : ¬s.queue.entries.length < Config.queueCapacity := by
    simp only [Config.queueCapacity]; omega
  simp only [State.offerFrame, if_neg hr]

/-- R64, R66: what the queue holds after a good frame is offered. -/
theorem State.offerFrame_queue :
    (s.offerFrame e).queue =
      if s.queue.entries.length < 64 then
        { s.queue with
          entries := s.queue.entries ++ [e]
          congested := s.queue.congested || decide (s.queue.entries.length = 47) }
      else s.queue := by
  simp only [State.offerFrame, Config.queueCapacity, Config.highMark, State.setQueue_queue,
    List.length_append, List.length_cons, List.length_nil, Nat.zero_add]
  by_cases hl : s.queue.entries.length < 64
  · rw [if_pos hl, if_pos hl]
    split
    · next h => simp [show s.queue.entries.length = 47 by omega]
    · next h =>
      cases hc : s.queue.congested
      · simp only [State.setQueue_queue, Bool.false_or]
        rw [decide_eq_false]
        intro hx
        exact h ⟨by omega, hc⟩
      · simp
  · rw [if_neg hl, if_neg hl]; simp

theorem State.offerFrame_attention {s : State} (h : s.attention.sound = true) :
    (s.offerFrame e).attention.sound = true := by
  simp only [State.offerFrame]; split
  · split <;> simpa using h
  · exact State.latch_sound e.link.isLt (by simpa using h)

theorem State.offerFrame_timerAgrees {k : Fin 16} {s : State} (h : s.timerAgrees k = true) :
    (s.offerFrame e).timerAgrees k = true := by
  simp only [State.offerFrame]; split
  · split
    · exact State.eachLink_timerAgrees h
    · exact h
  · exact State.changeLink_timerAgrees h

theorem State.offerFrame_queueSound {s : State} (h : s.queueSound = true) :
    (s.offerFrame e).queueSound = true := by
  simp only [State.queueSound, IntakeQueue.bounded, State.markerAgrees, State.heldAgrees,
    State.markerAtHead, State.offerFrame_queue, State.offerFrame_sweep, State.offerFrame_clock,
    Config.queueCapacity] at h ⊢
  split
  · next hl =>
    simp only [Bool.and_eq_true, beq_iff_eq, decide_eq_true_eq, List.length_append,
      List.length_cons, List.length_nil] at h ⊢
    refine ⟨⟨⟨⟨by omega, ?_⟩, h.1.1.2⟩, h.1.2⟩, h.2⟩
    have := h.1.1.1.2
    cases hq : s.queue.marker with
    | none => rfl
    | some q => simp [hq] at this ⊢; omega
  · exact h

end

/-! ## removeHead -/

section
variable (rest : List FrameEntry) (s : State)

@[simp] theorem State.removeHead_device : (s.removeHead rest).device = s.device := by
  simp only [State.removeHead, State.noteMarkerAtHead_device]; split <;> simp
@[simp] theorem State.removeHead_clock : (s.removeHead rest).clock = s.clock := by
  simp only [State.removeHead, State.noteMarkerAtHead_clock]; split <;> simp
@[simp] theorem State.removeHead_tariff : (s.removeHead rest).tariff = s.tariff := by
  simp only [State.removeHead, State.noteMarkerAtHead_tariff]; split <;> simp
@[simp] theorem State.removeHead_holdTime : (s.removeHead rest).holdTime = s.holdTime := by
  simp only [State.removeHead, State.noteMarkerAtHead_holdTime]; split <;> simp
@[simp] theorem State.removeHead_slots : (s.removeHead rest).slots = s.slots := by
  simp only [State.removeHead, State.noteMarkerAtHead_slots]; split <;> simp
@[simp] theorem State.removeHead_directory : (s.removeHead rest).directory = s.directory := by
  simp only [State.removeHead, State.noteMarkerAtHead_directory]; split <;> simp
@[simp] theorem State.removeHead_port : (s.removeHead rest).port = s.port := by
  simp only [State.removeHead, State.noteMarkerAtHead_port]; split <;> simp
@[simp] theorem State.removeHead_pending : (s.removeHead rest).pending = s.pending := by
  simp only [State.removeHead, State.noteMarkerAtHead_pending]; split <;> simp
@[simp] theorem State.removeHead_mask :
    (s.removeHead rest).attention.mask = s.attention.mask := by
  simp only [State.removeHead, State.noteMarkerAtHead_mask]; split <;> simp

/-- R65, R66: what the queue holds after its head entry is removed. -/
theorem State.removeHead_queue :
    (s.removeHead rest).queue =
      ⟨rest, s.queue.marker.map fun q => { q with position := q.position - 1 },
        s.queue.congested && decide (rest.length ≠ 16)⟩ := by
  simp only [State.removeHead, State.noteMarkerAtHead_queue]
  split
  · next h =>
    have h16 : rest.length = 16 := h.1
    simp [h16]
  · next h =>
    replace h : ¬(rest.length = 16 ∧ s.queue.congested = true) := h
    simp only [State.setQueue_queue]
    cases hc : s.queue.congested
    · simp
    · have : ¬rest.length = 16 := fun hx => h ⟨hx, hc⟩
      simp [this]

theorem State.removeHead_sweep :
    (s.removeHead rest).sweep =
      { s.sweep with
        heldMarker := s.sweep.heldMarker ||
          (s.queue.marker.any (fun q => q.position ≤ 1) && s.sweep.running) } := by
  have hn : ∀ n : Nat, (n - 1 == 0) = decide (n ≤ 1) := fun n => by
    rw [beq_eq_decide, decide_eq_decide]; omega
  simp only [State.removeHead, State.noteMarkerAtHead_sweep]
  split <;> cases hq : s.queue.marker <;> simp [State.markerAtHead, hn]

theorem State.mem_removeHead (q : AttnPair) :
    q ∈ (s.removeHead rest).attention.pendingSet ↔
      (q = ⟨.sweepLate, 0⟩ ∧ (∃ m, s.queue.marker = some m ∧ m.position ≤ 1) ∧
        s.sweep.running = true) ∨ q ∈ s.attention.pendingSet := by
  have hn : ∀ n : Nat, (n - 1 == 0) = decide (n ≤ 1) := fun n => by
    rw [beq_eq_decide, decide_eq_decide]; omega
  simp only [State.removeHead, State.mem_noteMarkerAtHead]
  split <;> cases hq : s.queue.marker <;> simp [State.markerAtHead, hn]

theorem State.removeHead_attention {s : State} (h : s.attention.sound = true) :
    (s.removeHead rest).attention.sound = true := by
  simp only [State.removeHead]
  apply State.noteMarkerAtHead_attention
  split <;> simpa using h

theorem State.removeHead_timerAgrees {k : Fin 16} {s : State} (h : s.timerAgrees k = true) :
    (s.removeHead rest).timerAgrees k = true := by
  have hn : ∀ u : State, u.timerAgrees k = true → u.noteMarkerAtHead.timerAgrees k = true := by
    intro u hu
    simpa only [State.timerAgrees, State.noteMarkerAtHead_awake,
      State.noteMarkerAtHead_channels, State.flowing, State.noteMarkerAtHead_links] using hu
  simp only [State.removeHead]
  apply hn
  split
  · exact State.eachLink_timerAgrees h
  · exact h

/-- R69, R74: removing the head entry retimes the channels whose link it makes FLOWING, and no other. -/
theorem State.removeHead_channel (k : Fin 16) :
    (s.removeHead rest).channels[k] =
      retimed (s.flowing (linkOf k)) ((s.removeHead rest).flowing (linkOf k)) s.channels[k] := by
  simp only [State.removeHead, State.flowing, State.noteMarkerAtHead_channels,
    State.noteMarkerAtHead_links]
  split
  · rw [State.eachLink_channel, State.eachLink_link]; rfl
  · exact (retimed_same _ _).symm

theorem State.removeHead_flowing {s : State} {n : Fin 4} (h : s.links[n].flow = .flowing) :
    (s.removeHead rest).links[n].flow = .flowing := by
  have hr : ∀ (x : Nat) (l : Link), l.flow = .flowing → (l.releaseRequest x).flow = .flowing := by
    intro x l hl
    simp [Link.releaseRequest, hl]
  simp only [State.removeHead, State.noteMarkerAtHead_links]
  split
  · rw [State.eachLink_link]; exact hr _ _ h
  · exact h

/-- R63 to R66, R108: removing the head entry, with no marker ahead of it, keeps queue, marker and
sweep in agreement. -/
theorem State.removeHead_queueSound {e : FrameEntry} {s : State} (h : s.queueSound = true)
    (he : s.queue.entries = e :: rest) (ha : s.markerAtHead = false) :
    (s.removeHead rest).queueSound = true := by
  simp only [State.queueSound, IntakeQueue.bounded, State.markerAgrees, State.heldAgrees,
    State.markerAtHead, State.removeHead_queue, State.removeHead_sweep, State.removeHead_clock,
    Config.queueCapacity] at h ha ⊢
  simp only [Bool.and_eq_true, beq_iff_eq, decide_eq_true_eq, he, List.length_cons] at h ⊢
  obtain ⟨⟨⟨⟨hb, hp⟩, hm⟩, hh⟩, hs⟩ := h
  have hs' : ∀ b, Sweep.sound { s.sweep with heldMarker := b } = true := fun b => hs
  cases hq : s.queue.marker with
  | none => simp_all; omega
  | some q =>
    rw [hq] at ha hp hm hh
    have ha' : ¬q.position = 0 := by simpa using ha
    have hh' : s.sweep.heldMarker = false := by
      rw [hh]; simp only [beq_eq_false_iff_ne.2 ha', Bool.false_and]
    have hp' : q.position ≤ rest.length + 1 := by simpa using hp
    refine ⟨⟨⟨⟨by omega, ?_⟩, by simpa using hm⟩, ?_⟩, hs' _⟩
    · simp only [Option.map_some, decide_eq_true_eq]; omega
    · simp only [hh', Option.any_some, Option.map_some, Bool.false_or]
      congr 1
      rw [beq_eq_decide, decide_eq_decide]; omega

end

/-! ## Reception (R59) -/

/-- A hold request leaves the receiver as it was. -/
theorem Link.holdRequest_receiver (h : Nat) (l : Link) :
    (l.holdRequest h).receive = l.receive ∧ (l.holdRequest h).collected = l.collected ∧
      (l.holdRequest h).charError = l.charError := by
  simp only [Link.holdRequest, Link.sendControl, Link.beginNext]
  repeat' split
  all_goals simp

/-- An offered frame leaves every receiver as it was. -/
theorem State.offerFrame_receiver (e : FrameEntry) (s : State) (n : Fin 4) :
    (s.offerFrame e).links[n].receive = s.links[n].receive ∧
      (s.offerFrame e).links[n].collected = s.links[n].collected ∧
      (s.offerFrame e).links[n].charError = s.links[n].charError := by
  by_cases hl : 64 ≤ s.queue.entries.length
  · simp only [State.offerFrame_dropped hl, State.latch_links, State.changeLink_links,
      Fin.getElem_fin, Vector.getElem_set]
    split
    · next h => have : e.link = n := Fin.ext h
                subst this; exact ⟨rfl, rfl, rfl⟩
    · exact ⟨rfl, rfl, rfl⟩
  · by_cases hc : s.queue.entries.length ≠ 47 ∨ s.queue.congested = true
    · rw [State.offerFrame_entered (by omega) hc]; exact ⟨rfl, rfl, rfl⟩
    · simp only [not_or, not_not, Bool.not_eq_true] at hc
      rw [State.offerFrame_congesting hc.1 hc.2, State.eachLink_link]
      exact Link.holdRequest_receiver _ _

theorem State.endFrame_good {n : Fin 4} {x : List Byte} {b : Bool} {e : FrameEntry} (s : State)
    (h : checkFrame n x b = some e) :
    s.endFrame n x b =
      (s.changeLink n { s.links[n] with
        receive := .waiting, collected := [], charError := false }).goodFrame n e := by
  simp only [State.endFrame, h]

theorem State.endFrame_bad {n : Fin 4} {x : List Byte} {b : Bool} (s : State)
    (h : checkFrame n x b = none) :
    s.endFrame n x b =
      (s.changeLink n { s.links[n] with
        receive := .waiting, collected := [], charError := false }).discardFrame n := by
  simp only [State.endFrame, h]

/-- The end of a frame leaves its receiver waiting. -/
theorem State.endFrame_receiver (n : Fin 4) (x : List Byte) (b : Bool) (s : State) :
    (s.endFrame n x b).links[n].receive = .waiting ∧ (s.endFrame n x b).links[n].collected = [] ∧
      (s.endFrame n x b).links[n].charError = false := by
  rcases Option.eq_none_or_eq_some (checkFrame n x b) with h | ⟨e, h⟩
  · rw [State.endFrame_bad s h]; simp [State.discardFrame]
  · rw [State.endFrame_good s h, State.goodFrame]
    simp only [State.offerFrame_receiver]
    simp
section
variable (n : Fin 4)

/-- What holds through each character holds through all of them. -/
theorem State.receiveCharacters_induction {P : State → Prop}
    (h : ∀ (t : State) (c : LineChar), P t → P (t.receiveCharacter n c.char c.goodStop)) :
    ∀ (chars : List LineChar) (s : State), P s → P (s.receiveCharacters n chars)
  | [], _, hs => hs
  | c :: rest, s, hs => State.receiveCharacters_induction h rest _ (h s c hs)

theorem State.receiveCharacters_cons (c : LineChar) (rest : List LineChar) (s : State) :
    s.receiveCharacters n (c :: rest) =
      (s.receiveCharacter n c.char c.goodStop).receiveCharacters n rest := rfl

/-- A bad character begins no frame in a receiver that waits. -/
theorem State.receiveCharacters_badFirst {c : LineChar} (rest : List LineChar) {s : State}
    (hw : s.links[n].receive = .waiting) (hb : c.goodStop = false) :
    s.receiveCharacters n (c :: rest) = s.receiveCharacters n rest := by
  rw [State.receiveCharacters_cons]
  simp only [State.receiveCharacter, hw, hb, Bool.false_eq_true, if_false]

/-- The end of a frame does not see what its link's receiver held. -/
theorem State.endFrame_changeLink (x : List Byte) (b : Bool) {l : Link} {s : State}
    (hf : l.flow = s.links[n].flow)
    (hl : { l with receive := .waiting, collected := [], charError := false } =
      { s.links[n] with receive := .waiting, collected := [], charError := false }) :
    (s.changeLink n l).endFrame n x b = s.endFrame n x b := by
  rw [State.changeLink_sameFlow hf]
  have hg : (s.setLinks (s.links.set n l)).links[n] = l := by simp
  have hs : ∀ m : Link, m.flow = s.links[n].flow →
      (s.setLinks (s.links.set n l)).changeLink n m = s.changeLink n m := by
    intro m hm
    rw [State.changeLink_sameFlow hm, State.changeLink_sameFlow (by rw [hg, hm, hf])]
    simp [State.setLinks]
  simp only [State.endFrame, hg, hl]
  rw [hs { s.links[n] with receive := .waiting, collected := [], charError := false } rfl]

/-- The link number of a frame that passes the checks is the receiver's. -/
theorem checkFrame_link {n : Fin 4} {f : List Byte} {b : Bool} {e : FrameEntry}
    (h : checkFrame n f b = some e) : e.link = n := by
  cases b
  · simp only [checkFrame, Bool.false_eq_true, if_false, totalsFrame] at h
    repeat' split at h
    all_goals first
      | (cases h; done)
      | (cases h; rfl)
  · simp [checkFrame] at h

/-- The outstanding characters of a frame in progress end it. -/
theorem State.receiveCharacters_collecting : ∀ (chars : List LineChar) (s : State),
    s.links[n].receive = .collecting → chars ≠ [] →
    s.links[n].collected.length + chars.length = 25 →
    s.receiveCharacters n chars =
      s.endFrame n (s.links[n].collected ++ chars.map LineChar.char)
        (s.links[n].charError || chars.any fun c => !c.goodStop)
  | [], _, _, hne, _ => absurd rfl hne
  | [c], s, hc, _, hl => by
    have : (s.links[n].collected ++ [c.char]).length = Config.frameLength := by
      simpa [Config.frameLength] using hl
    rw [State.receiveCharacters_cons]
    simp only [State.receiveCharacter, hc, State.addCharacter, this, if_true]
    simp [State.receiveCharacters]
  | c :: d :: rest, s, hc, _, hl => by
    have hlen : ¬(s.links[n].collected ++ [c.char]).length = Config.frameLength := by
      simp [Config.frameLength] at hl ⊢; omega
    rw [State.receiveCharacters_cons]
    simp only [State.receiveCharacter, hc, State.addCharacter, if_neg hlen]
    generalize hk : { s.links[n] with
      receive := ReceiveState.collecting, collected := s.links[n].collected ++ [c.char],
      charError := s.links[n].charError || !c.goodStop } = l
    have hg : (s.changeLink n l).links[n] = l := by simp
    rw [State.receiveCharacters_collecting (d :: rest) _ (by rw [hg, ← hk]) (by simp)
      (by rw [hg, ← hk]; simp at hl ⊢; omega), hg,
      State.endFrame_changeLink n _ _ (by rw [← hk]) (by rw [← hk])]
    rw [← hk]
    simp [Bool.or_assoc]

/-- Twenty-five characters, the first of them good, end a frame in a receiver that waits. -/
theorem State.receiveCharacters_waiting {c : LineChar} {rest : List LineChar} {s : State}
    (hw : s.links[n].receive = .waiting) (hg : c.goodStop = true) (hl : rest.length = 24) :
    s.receiveCharacters n (c :: rest) =
      s.endFrame n (c.char :: rest.map LineChar.char) (rest.any fun d => !d.goodStop) := by
  have hne : rest ≠ [] := by rintro rfl; simp at hl
  rw [State.receiveCharacters_cons]
  simp only [State.receiveCharacter, hw, hg, if_true]
  generalize hk : { s.links[n] with
    receive := ReceiveState.collecting, collected := [c.char], charError := false } = l
  have hn : (s.changeLink n l).links[n] = l := by simp
  rw [State.receiveCharacters_collecting n rest _ (by rw [hn, ← hk]) hne
    (by rw [hn, ← hk]; simp; omega), hn,
    State.endFrame_changeLink n _ _ (by rw [← hk]) (by rw [← hk])]
  rw [← hk]
  simp

end

end Sys2Proof.Machine
end

