-- ==== Sys2Proof/Laws/Channels.lean ====
section
/-!
SUPPORT. The channel unit: what taking a frame, silence, the seal, a reset and the reference counts
leave in every field, and that each keeps a channel record sound (R78 to R103, R154).
-/

namespace Sys2Proof.Machine

/-! ## Channel numbers -/

@[simp] theorem linkOf_channelAt (n sub : Fin 4) : linkOf (channelAt n sub) = n := by
  ext; simp only [linkOf, channelAt]; omega

theorem channelAt_eq_iff (n sub : Fin 4) (k : Fin 16) :
    k = channelAt n sub ↔ linkOf k = n ∧ k.val % 4 = sub.val := by
  constructor
  · rintro rfl; exact ⟨linkOf_channelAt n sub, by simp only [channelAt]; omega⟩
  · rintro ⟨rfl, h⟩; ext; simp only [linkOf, channelAt]; omega

/-! ## setChannel -/

theorem State.setChannel_channel (k j : Fin 16) (c : Channel) (s : State) :
    (s.setChannel k c).channels[j] = if j = k then c else s.channels[j] := by
  simp only [State.setChannel_channels, Fin.getElem_fin, Vector.getElem_set]
  by_cases h : j = k
  · subst h; simp
  · simp [h, show ¬k.val = j.val from fun hc => h (Fin.ext hc.symm)]

theorem State.setChannel_flowing (k : Fin 16) (c : Channel) (n : Fin 4) (s : State) :
    (s.setChannel k c).flowing n = s.flowing n := rfl

/-- A channel record with the timer as the link has it keeps the agreement. -/
theorem State.setChannel_timerAgrees {k j : Fin 16} {c : Channel} {s : State}
    (h : s.timerAgrees j = true)
    (hc : c.state = .unregistered ∨
      decide (c.timerMode = .frozen) = !s.flowing (linkOf k)) :
    (s.setChannel k c).timerAgrees j = true := by
  simp only [State.timerAgrees, State.setChannel_awake, State.setChannel_flowing,
    State.setChannel_channel] at h ⊢
  by_cases hj : j = k
  · subst hj
    rcases hc with hc | hc <;> simp [hc]
  · simpa only [hj, if_false] using h

/-! ## Taking a frame (R81 to R92) -/

/-- The kinds a channel latches with its own number. -/
def AttnKind.ofChannel (k : AttnKind) : Bool := k.sources == 16

theorem AttnKind.ofChannel_sources {k : AttnKind} (h : k.ofChannel = true) (c : Fin 16) :
    c.val < k.sources := by
  simp only [AttnKind.ofChannel, beq_iff_eq] at h; rw [h]; exact c.isLt

theorem resume_kinds (d : Triple Nat) (c : Channel) :
    ∀ k ∈ (resume d c).2, k.ofChannel = true := by
  simp only [resume]
  split
  · split <;> simp [AttnKind.ofChannel, AttnKind.sources]
  · split <;> simp [AttnKind.ofChannel, AttnKind.sources]

theorem judgeFrame_kinds (flowing : Bool) (second : Word) (e : FrameEntry) (c : Channel) :
    ∀ k ∈ (judgeFrame flowing second e c).2, k.ofChannel = true := by
  have hp : ∀ (d : Triple Nat) (c : Channel), ∀ k ∈ (placeIncrements d c).2,
      k.ofChannel = true := by
    intro d c; simp only [placeIncrements]; split
    · exact resume_kinds d c
    · simp
  have hr : ∀ c : Channel, ∀ k ∈ (rebaseline second e c).2, k.ofChannel = true := by
    intro c; simp only [rebaseline]; split
    · exact resume_kinds _ _
    · simp
  have hi : AttnKind.ofChannel .implausible = true := rfl
  have hq : ∀ c : Channel, ∀ k ∈ (judgeSequence second e c).2, k.ofChannel = true := by
    intro c; simp only [judgeSequence]; split
    · simp
    · split
      · simp only [implausibleFrame]; split
        · simp [hi]
        · simpa [hi] using hr c
      · exact hp _ _
  simp only [judgeFrame]; split
  · simp
  · split
    · simp [AttnKind.ofChannel, AttnKind.sources]
    · split
      · simp
      · exact hq _

/-- What a record must have to be sound while LIVE. -/
theorem Channel.sound_live {c : Channel} (hs : c.state = .live) :
    c.sound = true ↔
      c.credit = Triple.same 0 ∧ 2 ≤ c.timeout ∧ c.timeout ≤ 60 ∧ c.timerHalves ≤ 120 ∧
        c.implausibleRun ≤ 2 ∧ c.identity.isSome = true ∧ c.ratedPower.isSome = true ∧
        c.lastTotals.isSome = true ∧ c.lastSequence.isSome = true := by
  simp [Channel.sound, Channel.creditSound, Channel.timerSound, Channel.presenceSound, hs]
  tauto

/-- What a record must have to be sound while SILENT. -/
theorem Channel.sound_silent {c : Channel} (hs : c.state = .silent) :
    c.sound = true ↔
      (c.credit = Triple.same 0 ∨ c.policy = .holdLast) ∧ 2 ≤ c.timeout ∧ c.timeout ≤ 60 ∧
        c.timerHalves ≤ 120 ∧ c.implausibleRun ≤ 2 ∧ c.identity.isSome = true ∧
        c.ratedPower.isSome = true ∧ c.lastTotals.isSome = true ∧
        c.lastSequence.isSome = true := by
  simp [Channel.sound, Channel.creditSound, Channel.timerSound, Channel.presenceSound, hs]
  tauto

/-- What a record must have to be sound while AWAITING. -/
theorem Channel.sound_awaiting {c : Channel} (hs : c.state = .awaiting) :
    c.sound = true ↔
      c.credit = Triple.same 0 ∧ 2 ≤ c.timeout ∧ c.timeout ≤ 60 ∧ c.timerHalves ≤ 120 ∧
        c.implausibleRun ≤ 2 ∧ c.identity.isSome = true ∧ c.ratedPower.isSome = true ∧
        c.lastTotals = none ∧ c.lastSequence = none ∧ c.lastSecond = none := by
  simp [Channel.sound, Channel.creditSound, Channel.timerSound, Channel.presenceSound, hs]
  tauto

/-- What a record must have to be sound while UNREGISTERED. -/
theorem Channel.sound_unregistered {c : Channel} (hs : c.state = .unregistered) :
    c.sound = true ↔
      c.credit = Triple.same 0 ∧ c.timerMode = .stopped ∧ c.timerHalves = 0 ∧
        2 ≤ c.timeout ∧ c.timeout ≤ 60 ∧ c.implausibleRun ≤ 2 ∧ c.identity = none ∧
        c.lastTotals = none ∧ c.lastSequence = none ∧ c.lastSecond = none := by
  simp [Channel.sound, Channel.creditSound, Channel.timerSound, Channel.presenceSound, hs]
  constructor
  · rintro ⟨⟨h1, h2⟩, h3⟩; refine ⟨h1, h2.1.1.1.1.1, h2.1.1.1.1.2, ?_⟩; tauto
  · rintro ⟨h1, h2, h3, h4, h5, h6, h7⟩; refine ⟨⟨h1, ?_⟩, ?_⟩ <;> simp_all

theorem resume_live (d : Triple Nat) (c : Channel) :
    (resume d c).1.state = .live ∧ (resume d c).1.credit = Triple.same 0 ∧
      (resume d c).1.timeout = c.timeout ∧ (resume d c).1.timerHalves = c.timerHalves ∧
      (resume d c).1.timerMode = c.timerMode ∧
      (resume d c).1.implausibleRun = c.implausibleRun ∧
      (resume d c).1.identity = c.identity ∧ (resume d c).1.ratedPower = c.ratedPower ∧
      (resume d c).1.lastTotals = c.lastTotals ∧
      (resume d c).1.lastSequence = c.lastSequence := by
  simp only [resume]
  split
  · simp
  · split <;> simp

/-- A frame's judgement keeps a LIVE or SILENT record sound, and its timer. -/
theorem judgeSequence_sound {second : Word} {e : FrameEntry} {c : Channel}
    (hc : c.state = .live ∨ c.state = .silent) (h : c.sound = true) :
    (judgeSequence second e c).1.sound = true ∧
      (judgeSequence second e c).1.timerMode = c.timerMode := by
  have hp : ∀ (d : Triple Nat) (r : Channel), (r.state = .live ∨ r.state = .silent) →
      (r.state = .live → r.credit = Triple.same 0) → 2 ≤ r.timeout → r.timeout ≤ 60 →
      r.timerHalves ≤ 120 → r.implausibleRun ≤ 2 → r.identity.isSome = true →
      r.ratedPower.isSome = true → r.lastTotals.isSome = true → r.lastSequence.isSome = true →
      (placeIncrements d r).1.sound = true ∧
        (placeIncrements d r).1.timerMode = r.timerMode := by
    intro d r hr hcr h1 h2 h3 h4 h5 h6 h7 h8
    simp only [placeIncrements]
    split
    · obtain ⟨g0, g1, g2, g3, g4, g5, g6, g7, g8, g9⟩ := resume_live d r
      rw [Channel.sound_live g0, g1, g2, g3, g4, g5, g6, g7, g8, g9]
      simp_all
    · next hs =>
      have hl : r.state = .live := by tauto
      refine ⟨?_, rfl⟩
      rw [Channel.sound_live (by exact hl)]
      exact ⟨hcr hl, h1, h2, h3, h4, h5, h6, h7, h8⟩
  have hall : 2 ≤ c.timeout ∧ c.timeout ≤ 60 ∧ c.timerHalves ≤ 120 ∧ c.implausibleRun ≤ 2 ∧
      c.identity.isSome = true ∧ c.ratedPower.isSome = true ∧ c.lastTotals.isSome = true ∧
      c.lastSequence.isSome = true ∧ (c.state = .live → c.credit = Triple.same 0) := by
    rcases hc with hc | hc
    · rw [Channel.sound_live hc] at h; simp_all
    · rw [Channel.sound_silent hc] at h; simp_all
  obtain ⟨h1, h2, h3, h4, h5, h6, h7, h8, h9⟩ := hall
  simp only [judgeSequence]
  split
  · exact ⟨h, rfl⟩
  · split
    · simp only [implausibleFrame]
      split
      · next hlt =>
        refine ⟨?_, rfl⟩
        rcases hc with hc | hc
        · rw [Channel.sound_live hc] at h; rw [Channel.sound_live (by exact hc)]
          refine ⟨h.1, h1, h2, h3, ?_, h5, h6, h7, h8⟩; simp only; omega
        · rw [Channel.sound_silent hc] at h; rw [Channel.sound_silent (by exact hc)]
          refine ⟨h.1, h1, h2, h3, ?_, h5, h6, h7, h8⟩; simp only; omega
      · simp only [rebaseline]
        split
        · obtain ⟨g0, g1, g2, g3, g4, g5, g6, g7, g8, g9⟩ := resume_live (Triple.same 0)
            (recordFrame second e { c with openEstimated := true })
          rw [Channel.sound_live g0, g1, g2, g3, g4, g5, g6, g7, g8, g9]
          simp_all [recordFrame]
        · next hs =>
          have hl : c.state = .live := by
            rcases hc with hc | hc
            · exact hc
            · exact absurd hc hs
          refine ⟨?_, rfl⟩
          rw [Channel.sound_live (by exact hl)]
          exact ⟨h9 hl, h1, h2, h3, by simp [recordFrame], h5, h6, rfl, rfl⟩
    · exact hp _ _ hc h9 h1 h2 h3 (by simp [recordFrame]) h5 h6 rfl rfl

theorem reloadTimer_state (b : Bool) (c : Channel) : (reloadTimer b c).state = c.state := by
  simp only [reloadTimer]; split <;> rfl

theorem reloadTimer_sound {b : Bool} {c : Channel} (h : c.sound = true) :
    (reloadTimer b c).sound = true := by
  by_cases hu : c.state = .unregistered
  · simpa [reloadTimer, hu] using h
  · simp [reloadTimer, hu, Channel.sound, Channel.creditSound, Channel.timerSound,
      Channel.presenceSound] at h ⊢
    exact ⟨⟨h.1.1, by omega⟩, h.2⟩

/-- R81 to R92: a frame's judgement keeps a channel record sound. -/
theorem judgeFrame_sound {flowing : Bool} {second : Word} {e : FrameEntry} {c : Channel}
    (h : c.sound = true) : (judgeFrame flowing second e c).1.sound = true := by
  simp only [judgeFrame]
  split
  · exact h
  · split
    · exact h
    · have hr : (if flowing = true then reloadTimer true c else c).sound = true := by
        split
        · exact reloadTimer_sound h
        · exact h
      have hst : (if flowing = true then reloadTimer true c else c).state = c.state := by
        split
        · exact reloadTimer_state ..
        · rfl
      generalize (if flowing = true then reloadTimer true c else c) = r at hr hst
      split
      · next ha =>
        rw [Channel.sound_awaiting (by rw [hst]; exact ha)] at hr
        rw [Channel.sound_live rfl]
        simp only [baseline, recordFrame]
        exact ⟨hr.1, hr.2.1, hr.2.2.1, hr.2.2.2.1, by simp, hr.2.2.2.2.2.1, hr.2.2.2.2.2.2.1,
          rfl, rfl⟩
      · next hu _ ha =>
        refine (judgeSequence_sound ?_ hr).1
        rw [hst]
        cases hs : c.state <;> simp_all

/-- The timer of a judged frame's record: as it was, or running on a FLOWING link. -/
theorem judgeFrame_timer (flowing : Bool) (second : Word) (e : FrameEntry) {c : Channel}
    (hc : c.sound = true) :
    (judgeFrame flowing second e c).1.timerMode = c.timerMode ∨
      (flowing = true ∧ (judgeFrame flowing second e c).1.timerMode = .running) := by
  by_cases hu : c.state = .unregistered
  · left; simp [judgeFrame, hu]
  · by_cases hi : c.identity ≠ some e.identity
    · left; simp [judgeFrame, hu, hi]
    · simp only [judgeFrame, hu, if_false, hi]
      have hr : (if flowing = true then reloadTimer true c else c).sound = true := by
        split
        · exact reloadTimer_sound hc
        · exact hc
      have hst : (if flowing = true then reloadTimer true c else c).state = c.state := by
        split
        · exact reloadTimer_state ..
        · rfl
      have hm : (if flowing = true then reloadTimer true c else c).timerMode = c.timerMode ∨
          (flowing = true ∧
            (if flowing = true then reloadTimer true c else c).timerMode = .running) := by
        cases flowing
        · left; rfl
        · right; simp [reloadTimer, hu]
      generalize (if flowing = true then reloadTimer true c else c) = r at hr hst hm
      split
      · exact hm
      · next ha =>
        have := (judgeSequence_sound (second := second) (e := e) (c := r)
          (by rw [hst]; cases hs : c.state <;> simp_all) hr).2
        rw [this]; exact hm

section
variable (e : FrameEntry) (s : State)

@[simp] theorem State.takeFrame_device : (s.takeFrame e).device = s.device := by
  simp [State.takeFrame]
@[simp] theorem State.takeFrame_clock : (s.takeFrame e).clock = s.clock := by
  simp [State.takeFrame]
@[simp] theorem State.takeFrame_tariff : (s.takeFrame e).tariff = s.tariff := by
  simp [State.takeFrame]
@[simp] theorem State.takeFrame_links : (s.takeFrame e).links = s.links := by
  simp [State.takeFrame]
@[simp] theorem State.takeFrame_holdTime : (s.takeFrame e).holdTime = s.holdTime := by
  simp [State.takeFrame]
@[simp] theorem State.takeFrame_queue : (s.takeFrame e).queue = s.queue := by
  simp [State.takeFrame]
@[simp] theorem State.takeFrame_sweep : (s.takeFrame e).sweep = s.sweep := by
  simp [State.takeFrame]
@[simp] theorem State.takeFrame_slots : (s.takeFrame e).slots = s.slots := by
  simp [State.takeFrame]
@[simp] theorem State.takeFrame_directory : (s.takeFrame e).directory = s.directory := by
  simp [State.takeFrame]
@[simp] theorem State.takeFrame_port : (s.takeFrame e).port = s.port := by
  simp [State.takeFrame]
@[simp] theorem State.takeFrame_pending : (s.takeFrame e).pending = s.pending := by
  simp [State.takeFrame]
@[simp] theorem State.takeFrame_mask :
    (s.takeFrame e).attention.mask = s.attention.mask := by simp [State.takeFrame]

theorem State.takeFrame_channels :
    (s.takeFrame e).channels = s.channels.set e.channel
      (judgeFrame (s.flowing e.link) s.clock.monotonic e s.channels[e.channel]).1 := by
  simp [State.takeFrame]

theorem State.mem_takeFrame (q : AttnPair) :
    q ∈ (s.takeFrame e).attention.pendingSet ↔
      (q.kind ∈ (judgeFrame (s.flowing e.link) s.clock.monotonic e s.channels[e.channel]).2 ∧
        q.source = e.channel) ∨ q ∈ s.attention.pendingSet := by
  simp only [State.takeFrame, State.mem_latchAll, State.setChannel_attention]

theorem State.takeFrame_attention {s : State} (h : s.attention.sound = true) :
    (s.takeFrame e).attention.sound = true := by
  simp only [State.takeFrame]
  exact State.latchAll_sound
    (fun k hk => AttnKind.ofChannel_sources (judgeFrame_kinds _ _ _ _ k hk) _) h

end

/-! ## Silence (R61, R80, R88) -/

section
variable (k : Fin 16) (n : Fin 4) (s : State)

@[simp] theorem State.silence_device : (s.silence k).device = s.device := by
  simp only [State.silence]; split <;> rfl
@[simp] theorem State.silenceLink_device : (s.silenceLink n).device = s.device := by
  simp [State.silenceLink]
@[simp] theorem State.expirePresence_device : (s.expirePresence k).device = s.device := by
  simp [State.expirePresence]
@[simp] theorem State.silence_clock : (s.silence k).clock = s.clock := by
  simp only [State.silence]; split <;> rfl
@[simp] theorem State.silenceLink_clock : (s.silenceLink n).clock = s.clock := by
  simp [State.silenceLink]
@[simp] theorem State.expirePresence_clock : (s.expirePresence k).clock = s.clock := by
  simp [State.expirePresence]
@[simp] theorem State.silence_tariff : (s.silence k).tariff = s.tariff := by
  simp only [State.silence]; split <;> rfl
@[simp] theorem State.silenceLink_tariff : (s.silenceLink n).tariff = s.tariff := by
  simp [State.silenceLink]
@[simp] theorem State.expirePresence_tariff : (s.expirePresence k).tariff = s.tariff := by
  simp [State.expirePresence]
@[simp] theorem State.silence_links : (s.silence k).links = s.links := by
  simp only [State.silence]; split <;> rfl
@[simp] theorem State.silenceLink_links : (s.silenceLink n).links = s.links := by
  simp [State.silenceLink]
@[simp] theorem State.expirePresence_links : (s.expirePresence k).links = s.links := by
  simp [State.expirePresence]
@[simp] theorem State.silence_holdTime : (s.silence k).holdTime = s.holdTime := by
  simp only [State.silence]; split <;> rfl
@[simp] theorem State.silenceLink_holdTime : (s.silenceLink n).holdTime = s.holdTime := by
  simp [State.silenceLink]
@[simp] theorem State.expirePresence_holdTime : (s.expirePresence k).holdTime = s.holdTime := by
  simp [State.expirePresence]
@[simp] theorem State.silence_queue : (s.silence k).queue = s.queue := by
  simp only [State.silence]; split <;> rfl
@[simp] theorem State.silenceLink_queue : (s.silenceLink n).queue = s.queue := by
  simp [State.silenceLink]
@[simp] theorem State.expirePresence_queue : (s.expirePresence k).queue = s.queue := by
  simp [State.expirePresence]
@[simp] theorem State.silence_sweep : (s.silence k).sweep = s.sweep := by
  simp only [State.silence]; split <;> rfl
@[simp] theorem State.silenceLink_sweep : (s.silenceLink n).sweep = s.sweep := by
  simp [State.silenceLink]
@[simp] theorem State.expirePresence_sweep : (s.expirePresence k).sweep = s.sweep := by
  simp [State.expirePresence]
@[simp] theorem State.silence_slots : (s.silence k).slots = s.slots := by
  simp only [State.silence]; split <;> rfl
@[simp] theorem State.silenceLink_slots : (s.silenceLink n).slots = s.slots := by
  simp [State.silenceLink]
@[simp] theorem State.expirePresence_slots : (s.expirePresence k).slots = s.slots := by
  simp [State.expirePresence]
@[simp] theorem State.silence_directory : (s.silence k).directory = s.directory := by
  simp only [State.silence]; split <;> rfl
@[simp] theorem State.silenceLink_directory : (s.silenceLink n).directory = s.directory := by
  simp [State.silenceLink]
@[simp] theorem State.expirePresence_directory : (s.expirePresence k).directory = s.directory := by
  simp [State.expirePresence]
@[simp] theorem State.silence_port : (s.silence k).port = s.port := by
  simp only [State.silence]; split <;> rfl
@[simp] theorem State.silenceLink_port : (s.silenceLink n).port = s.port := by
  simp [State.silenceLink]
@[simp] theorem State.expirePresence_port : (s.expirePresence k).port = s.port := by
  simp [State.expirePresence]
@[simp] theorem State.silence_pending : (s.silence k).pending = s.pending := by
  simp only [State.silence]; split <;> rfl
@[simp] theorem State.silenceLink_pending : (s.silenceLink n).pending = s.pending := by
  simp [State.silenceLink]
@[simp] theorem State.expirePresence_pending : (s.expirePresence k).pending = s.pending := by
  simp [State.expirePresence]
@[simp] theorem State.silence_mask : (s.silence k).attention.mask = s.attention.mask := by
  simp only [State.silence]; split <;> rfl

theorem State.silence_of_live {k : Fin 16} {s : State} (h : s.channels[k].state = .live) :
    s.silence k = (s.setChannel k (silenced s.channels[k])).latch .channelSilent k := if_pos h

theorem State.silence_of_not_live {k : Fin 16} {s : State} (h : s.channels[k].state ≠ .live) :
    s.silence k = s := if_neg h

theorem State.silence_channel (j : Fin 16) :
    (s.silence k).channels[j] =
      if j = k ∧ s.channels[k].state = .live then silenced s.channels[k] else s.channels[j] := by
  by_cases h : s.channels[k].state = .live
  · rw [State.silence_of_live h]
    simp only [State.latch_channels, h, and_true]
    exact State.setChannel_channel ..
  · simp only [State.silence_of_not_live h, h, and_false, if_false]

theorem State.mem_silence (q : AttnPair) :
    q ∈ (s.silence k).attention.pendingSet ↔
      (q = ⟨.channelSilent, k⟩ ∧ s.channels[k].state = .live) ∨
        q ∈ s.attention.pendingSet := by
  by_cases h : s.channels[k].state = .live
  · rw [State.silence_of_live h, State.mem_latch]
    simp only [h, and_true, State.setChannel_attention]
  · simp only [State.silence_of_not_live h, h, and_false, false_or]

theorem State.silence_attention {s : State} (h : s.attention.sound = true) :
    (s.silence k).attention.sound = true := by
  simp only [State.silence]
  split
  · exact State.latch_sound k.isLt h
  · exact h

theorem silenced_sound {c : Channel} (hl : c.state = .live) (h : c.sound = true) :
    (silenced c).sound = true := by
  rw [Channel.sound_live hl] at h
  rw [Channel.sound_silent rfl]
  exact ⟨Or.inl h.1, h.2⟩

theorem State.silenceLink_channel (j : Fin 16) :
    (s.silenceLink n).channels[j] =
      if linkOf j = n ∧ s.channels[j].state = .live then silenced s.channels[j]
      else s.channels[j] := by
  simp only [State.silenceLink, List.foldl_cons, List.foldl_nil, State.silence_channel]
  have hs : ∀ c : Channel, (silenced c).state = .silent := fun _ => rfl
  have hne : ∀ a b : Fin 4, a ≠ b → channelAt n a ≠ channelAt n b := by
    intro a b hab h
    apply hab
    have := congrArg Fin.val h
    simp only [channelAt] at this
    ext; omega
  have h1 := hne 1 0 (by decide)
  have h2 := hne 2 0 (by decide)
  have h3 := hne 3 0 (by decide)
  have h4 := hne 2 1 (by decide)
  have h5 := hne 3 1 (by decide)
  have h6 := hne 3 2 (by decide)
  by_cases hj : linkOf j = n
  · have hm : j = channelAt n 0 ∨ j = channelAt n 1 ∨ j = channelAt n 2 ∨
        j = channelAt n 3 := by
      simp only [channelAt_eq_iff, hj, true_and, Fin.val_zero, Fin.val_one, Fin.val_two]
      have : (3 : Fin 4).val = 3 := rfl
      omega
    rcases hm with rfl | rfl | rfl | rfl <;>
      simp [h1, h2, h3, h4, h5, h6, h1.symm, h2.symm, h3.symm, h4.symm, h5.symm, h6.symm]
  · have hn : ∀ a, j ≠ channelAt n a := by
      intro a h; exact hj ((channelAt_eq_iff n a j).1 h).1
    simp [hj, hn]

theorem State.mem_silenceLink (q : AttnPair) :
    q ∈ (s.silenceLink n).attention.pendingSet ↔
      (∃ j : Fin 16, linkOf j = n ∧ s.channels[j].state = .live ∧ q = ⟨.channelSilent, j⟩) ∨
        q ∈ s.attention.pendingSet := by
  simp only [State.silenceLink, List.foldl_cons, List.foldl_nil, State.mem_silence,
    State.silence_channel]
  have hne : ∀ a b : Fin 4, a ≠ b → channelAt n a ≠ channelAt n b := by
    intro a b hab h
    apply hab
    have := congrArg Fin.val h
    simp only [channelAt] at this
    ext; omega
  have h1 := hne 1 0 (by decide)
  have h2 := hne 2 0 (by decide)
  have h3 := hne 3 0 (by decide)
  have h4 := hne 2 1 (by decide)
  have h5 := hne 3 1 (by decide)
  have h6 := hne 3 2 (by decide)
  simp only [h1, h2, h3, h4, h5, h6, false_and, if_false]
  constructor
  · rintro (⟨rfl, h⟩ | ⟨rfl, h⟩ | ⟨rfl, h⟩ | ⟨rfl, h⟩ | h)
    · exact Or.inl ⟨_, linkOf_channelAt n 3, h, rfl⟩
    · exact Or.inl ⟨_, linkOf_channelAt n 2, h, rfl⟩
    · exact Or.inl ⟨_, linkOf_channelAt n 1, h, rfl⟩
    · exact Or.inl ⟨_, linkOf_channelAt n 0, h, rfl⟩
    · exact Or.inr h
  · rintro (⟨j, hj, h, rfl⟩ | h)
    · have hm : j = channelAt n 0 ∨ j = channelAt n 1 ∨ j = channelAt n 2 ∨
          j = channelAt n 3 := by
        simp only [channelAt_eq_iff, hj, true_and, Fin.val_zero, Fin.val_one, Fin.val_two]
        have : (3 : Fin 4).val = 3 := rfl
        omega
      rcases hm with rfl | rfl | rfl | rfl <;> tauto
    · tauto

theorem State.silenceLink_attention {s : State} (h : s.attention.sound = true) :
    (s.silenceLink n).attention.sound = true := by
  simp only [State.silenceLink, List.foldl_cons, List.foldl_nil]
  exact State.silence_attention _ (State.silence_attention _ (State.silence_attention _
    (State.silence_attention _ h)))

@[simp] theorem State.silenceLink_mask :
    (s.silenceLink n).attention.mask = s.attention.mask := by simp [State.silenceLink]

/-- R80, R88: the record of the channel whose presence timer expires. -/
theorem State.expirePresence_channel (j : Fin 16) :
    (s.expirePresence k).channels[j] =
      if j = k then
        let c := { s.channels[k] with timerMode := .stopped, timerHalves := 0 }
        if s.channels[k].state = .live then silenced c else c
      else s.channels[j] := by
  simp only [State.expirePresence, State.silence_channel, State.setChannel_channel, if_true]
  by_cases hj : j = k
  · subst hj; simp
  · simp [hj]

theorem State.expirePresence_attention {s : State} (h : s.attention.sound = true) :
    (s.expirePresence k).attention.sound = true := State.silence_attention _ h

end

/-! ## The seal (R93 to R96) -/

theorem sealChannel_state (c : Channel) : (sealChannel c).state = c.state := by
  simp only [sealChannel, clearOpen]
  split
  · rfl
  · simp only [sealSilent]; split <;> rfl
  · rfl
  · rfl

theorem sealChannel_timer (c : Channel) :
    (sealChannel c).timerMode = c.timerMode ∧ (sealChannel c).timerHalves = c.timerHalves := by
  simp only [sealChannel, clearOpen]
  split
  · exact ⟨rfl, rfl⟩
  · simp only [sealSilent]; split <;> exact ⟨rfl, rfl⟩
  · exact ⟨rfl, rfl⟩
  · exact ⟨rfl, rfl⟩

theorem sealChannel_referenceCount (c : Channel) :
    (sealChannel c).referenceCount = c.referenceCount := by
  simp only [sealChannel, clearOpen]
  split
  · rfl
  · simp only [sealSilent]; split <;> rfl
  · rfl
  · rfl

theorem sealChannel_sound {c : Channel} (h : c.sound = true) : (sealChannel c).sound = true := by
  have hs := sealChannel_state c
  cases hc : c.state
  · rw [Channel.sound_unregistered hc] at h
    rw [Channel.sound_unregistered (by rw [hs, hc])]
    simpa [sealChannel, clearOpen, hc, sealUnregistered] using h
  · rw [Channel.sound_awaiting hc] at h
    rw [Channel.sound_awaiting (by rw [hs, hc])]
    simpa [sealChannel, clearOpen, hc, sealAwaiting] using h
  · rw [Channel.sound_live hc] at h
    rw [Channel.sound_live (by rw [hs, hc])]
    simpa [sealChannel, clearOpen, hc, sealLive] using h
  · rw [Channel.sound_silent hc] at h
    rw [Channel.sound_silent (by rw [hs, hc])]
    cases hp : c.policy <;> simp_all [sealChannel, clearOpen, sealSilent]

/-! ## Resets (R103) -/

theorem State.latchSilent_frame (test : Fin 16 → Bool) (s : State) :
    s.latchSilent test = s.setAttention (s.latchSilent test).attention := by
  simp only [State.latchSilent]
  generalize channelNumbers = l
  induction l generalizing s with
  | nil => rfl
  | cons k l ih =>
    rw [List.foldl_cons, ih]
    split <;> rfl

theorem State.mem_latchSilent (test : Fin 16 → Bool) (q : AttnPair) (s : State) :
    q ∈ (s.latchSilent test).attention.pendingSet ↔
      (∃ k : Fin 16, test k = true ∧ q = ⟨.channelSilent, k⟩) ∨
        q ∈ s.attention.pendingSet := by
  have h : ∀ (l : List (Fin 16)) (s : State),
      q ∈ (l.foldl (fun t k => if test k then t.latch .channelSilent k else t)
        s).attention.pendingSet ↔
      (∃ k ∈ l, test k = true ∧ q = ⟨.channelSilent, k.val⟩) ∨
        q ∈ s.attention.pendingSet := by
    intro l
    induction l with
    | nil => simp
    | cons k l ih =>
      intro s
      rw [List.foldl_cons, ih]
      split
      · next ht => simp only [State.mem_latch, List.mem_cons, exists_eq_or_imp, ht, true_and]
                   rw [or_left_comm, or_assoc]
      · next ht =>
        simp only [List.mem_cons, exists_eq_or_imp, ht, Bool.false_eq_true, false_and, false_or]
  rw [State.latchSilent, h]
  simp [channelNumbers]

theorem State.latchSilent_attention (test : Fin 16 → Bool) {s : State}
    (h : s.attention.sound = true) : (s.latchSilent test).attention.sound = true := by
  simp only [State.latchSilent]
  generalize channelNumbers = l
  induction l generalizing s with
  | nil => exact h
  | cons k l ih =>
    rw [List.foldl_cons]
    apply ih
    split
    · exact State.latch_sound k.isLt h
    · exact h

@[simp] theorem State.latchSilent_mask (test : Fin 16 → Bool) (s : State) :
    (s.latchSilent test).attention.mask = s.attention.mask := by
  simp only [State.latchSilent]
  generalize channelNumbers = l
  induction l generalizing s with
  | nil => rfl
  | cons k l ih =>
    rw [List.foldl_cons, ih]
    split <;> rfl

section
variable (f : Channel → Channel) (s : State)

@[simp] theorem State.resetChannels_device : (s.resetChannels f).device = s.device := by
  rw [State.resetChannels, State.latchSilent_frame]; rfl
@[simp] theorem State.resetChannels_clock : (s.resetChannels f).clock = s.clock := by
  rw [State.resetChannels, State.latchSilent_frame]; rfl
@[simp] theorem State.resetChannels_tariff : (s.resetChannels f).tariff = s.tariff := by
  rw [State.resetChannels, State.latchSilent_frame]; rfl
@[simp] theorem State.resetChannels_links : (s.resetChannels f).links = s.links := by
  rw [State.resetChannels, State.latchSilent_frame]; rfl
@[simp] theorem State.resetChannels_holdTime : (s.resetChannels f).holdTime = s.holdTime := by
  rw [State.resetChannels, State.latchSilent_frame]; rfl
@[simp] theorem State.resetChannels_queue : (s.resetChannels f).queue = s.queue := by
  rw [State.resetChannels, State.latchSilent_frame]; rfl
@[simp] theorem State.resetChannels_sweep : (s.resetChannels f).sweep = s.sweep := by
  rw [State.resetChannels, State.latchSilent_frame]; rfl
@[simp] theorem State.resetChannels_slots : (s.resetChannels f).slots = s.slots := by
  rw [State.resetChannels, State.latchSilent_frame]; rfl
@[simp] theorem State.resetChannels_directory : (s.resetChannels f).directory = s.directory := by
  rw [State.resetChannels, State.latchSilent_frame]; rfl
@[simp] theorem State.resetChannels_port : (s.resetChannels f).port = s.port := by
  rw [State.resetChannels, State.latchSilent_frame]; rfl
@[simp] theorem State.resetChannels_pending : (s.resetChannels f).pending = s.pending := by
  rw [State.resetChannels, State.latchSilent_frame]; rfl
@[simp] theorem State.resetChannels_mask :
    (s.resetChannels f).attention.mask = s.attention.mask := by simp [State.resetChannels]
@[simp] theorem State.resetChannels_awake : (s.resetChannels f).awake = s.awake := by
  simp only [State.awake, State.resetChannels_device]

@[simp] theorem State.resetChannels_channels :
    (s.resetChannels f).channels = Vector.ofFn fun k : Fin 16 => f s.channels[k] := by
  rw [State.resetChannels, State.latchSilent_frame]; rfl

theorem State.mem_resetChannels (q : AttnPair) :
    q ∈ (s.resetChannels f).attention.pendingSet ↔
      (∃ k : Fin 16, s.channels[k].state = .live ∧ q = ⟨.channelSilent, k⟩) ∨
        q ∈ s.attention.pendingSet := by
  simp [State.resetChannels, State.mem_latchSilent]

theorem State.resetChannels_attention {s : State} (h : s.attention.sound = true) :
    (s.resetChannels f).attention.sound = true := State.latchSilent_attention _ h

end

/-- The record ENGINE CLEAR leaves is sound, and its timer runs unless it is UNREGISTERED. -/
theorem channelAfterClear_sound {c : Channel} (h : c.sound = true) :
    (channelAfterClear c).sound = true := by
  apply reloadTimer_sound
  cases hc : c.state
  · rw [Channel.sound_unregistered hc] at h
    rw [Channel.sound_unregistered (by simp)]; simpa using h
  · rw [Channel.sound_awaiting hc] at h
    rw [Channel.sound_awaiting (by simp)]; simpa using h
  · rw [Channel.sound_live hc] at h
    rw [Channel.sound_silent (by simp)]; simp_all
  · rw [Channel.sound_silent hc] at h
    rw [Channel.sound_silent (by simp)]; simpa using h

theorem channelAfterRestart_sound {c : Channel} (h : c.sound = true) :
    (channelAfterRestart c).sound = true := by
  have h' := channelAfterClear_sound h
  simp only [channelAfterRestart]
  generalize channelAfterClear c = d at h'
  cases hc : d.state
  · rw [Channel.sound_unregistered hc] at h'
    rw [Channel.sound_unregistered rfl]; simp_all
  · rw [Channel.sound_awaiting hc] at h'
    rw [Channel.sound_awaiting rfl]; simp_all
  · rw [Channel.sound_live hc] at h'
    rw [Channel.sound_live rfl]; simp_all
  · rw [Channel.sound_silent hc] at h'
    rw [Channel.sound_silent rfl]; simp_all

/-! ## Reference counts (R97, R154) -/

theorem termsNaming_append (k : Fin 16) (a b : List FeedPlace) :
    termsNaming k (a ++ b) = termsNaming k a + termsNaming k b := by simp [termsNaming]

@[simp] theorem termsNaming_nil (k : Fin 16) : termsNaming k [] = 0 := rfl

@[simp] theorem countReleased_zero (n : Nat) : countReleased n 0 = n := by simp [countReleased]

theorem countReleased_le {count released : Nat} (h : released ≤ count) :
    countReleased count released = count - released := by simp [countReleased, h]

section
variable (terms : List FeedPlace) (s : State)

@[simp] theorem State.addTerms_device : (s.addTerms terms).device = s.device := rfl
@[simp] theorem State.releaseTerms_device : (s.releaseTerms terms).device = s.device := rfl
@[simp] theorem State.recount_device : s.recount.device = s.device := rfl
@[simp] theorem State.addTerms_clock : (s.addTerms terms).clock = s.clock := rfl
@[simp] theorem State.releaseTerms_clock : (s.releaseTerms terms).clock = s.clock := rfl
@[simp] theorem State.recount_clock : s.recount.clock = s.clock := rfl
@[simp] theorem State.addTerms_tariff : (s.addTerms terms).tariff = s.tariff := rfl
@[simp] theorem State.releaseTerms_tariff : (s.releaseTerms terms).tariff = s.tariff := rfl
@[simp] theorem State.recount_tariff : s.recount.tariff = s.tariff := rfl
@[simp] theorem State.addTerms_links : (s.addTerms terms).links = s.links := rfl
@[simp] theorem State.releaseTerms_links : (s.releaseTerms terms).links = s.links := rfl
@[simp] theorem State.recount_links : s.recount.links = s.links := rfl
@[simp] theorem State.addTerms_holdTime : (s.addTerms terms).holdTime = s.holdTime := rfl
@[simp] theorem State.releaseTerms_holdTime : (s.releaseTerms terms).holdTime = s.holdTime := rfl
@[simp] theorem State.recount_holdTime : s.recount.holdTime = s.holdTime := rfl
@[simp] theorem State.addTerms_queue : (s.addTerms terms).queue = s.queue := rfl
@[simp] theorem State.releaseTerms_queue : (s.releaseTerms terms).queue = s.queue := rfl
@[simp] theorem State.recount_queue : s.recount.queue = s.queue := rfl
@[simp] theorem State.addTerms_sweep : (s.addTerms terms).sweep = s.sweep := rfl
@[simp] theorem State.releaseTerms_sweep : (s.releaseTerms terms).sweep = s.sweep := rfl
@[simp] theorem State.recount_sweep : s.recount.sweep = s.sweep := rfl
@[simp] theorem State.addTerms_slots : (s.addTerms terms).slots = s.slots := rfl
@[simp] theorem State.releaseTerms_slots : (s.releaseTerms terms).slots = s.slots := rfl
@[simp] theorem State.recount_slots : s.recount.slots = s.slots := rfl
@[simp] theorem State.addTerms_directory : (s.addTerms terms).directory = s.directory := rfl
@[simp] theorem State.releaseTerms_directory : (s.releaseTerms terms).directory = s.directory := rfl
@[simp] theorem State.recount_directory : s.recount.directory = s.directory := rfl
@[simp] theorem State.addTerms_attention : (s.addTerms terms).attention = s.attention := rfl
@[simp] theorem State.releaseTerms_attention : (s.releaseTerms terms).attention = s.attention := rfl
@[simp] theorem State.recount_attention : s.recount.attention = s.attention := rfl
@[simp] theorem State.addTerms_port : (s.addTerms terms).port = s.port := rfl
@[simp] theorem State.releaseTerms_port : (s.releaseTerms terms).port = s.port := rfl
@[simp] theorem State.recount_port : s.recount.port = s.port := rfl
@[simp] theorem State.addTerms_pending : (s.addTerms terms).pending = s.pending := rfl
@[simp] theorem State.releaseTerms_pending : (s.releaseTerms terms).pending = s.pending := rfl
@[simp] theorem State.recount_pending : s.recount.pending = s.pending := rfl

theorem State.addTerms_channel (k : Fin 16) :
    (s.addTerms terms).channels[k] =
      { s.channels[k] with
        referenceCount := s.channels[k].referenceCount + termsNaming k terms } := by
  simp [State.addTerms]

theorem State.releaseTerms_channel (k : Fin 16) :
    (s.releaseTerms terms).channels[k] =
      { s.channels[k] with
        referenceCount := countReleased s.channels[k].referenceCount (termsNaming k terms) } := by
  simp [State.releaseTerms]

theorem State.recount_channel (k : Fin 16) :
    s.recount.channels[k] =
      { s.channels[k] with
        referenceCount := if s.channels[k].state = .unregistered then 0
          else termsNaming k s.allTerms } := by
  simp [State.recount]

/-- Releasing no terms changes nothing. -/
@[simp] theorem State.releaseTerms_nil : s.releaseTerms [] = s := by
  have h : (s.releaseTerms []).channels = s.channels := by
    ext1 i hi
    have := State.releaseTerms_channel [] s ⟨i, hi⟩
    simpa using this
  calc s.releaseTerms [] = s.setChannels (s.releaseTerms []).channels := rfl
    _ = s := by rw [h]; rfl

end

/-- A reference count is no part of a channel record's soundness. -/
theorem Channel.sound_referenceCount (c : Channel) (n : Nat) :
    Channel.sound { c with referenceCount := n } = c.sound := rfl

end Sys2Proof.Machine
end

