-- ==== Sys2Proof/Laws/Accounts.lean ====
section
/-!
SUPPORT. The account record: what the fold, demand, a close and an amendment keep, and what the
boundary step, pull-forward and the account operations leave in every field (R10 to R24, R97, R111 to
R124, R133 to R160).
-/

namespace Sys2Proof.Machine

/-! ## setSlot -/

theorem State.setSlot_slot (i j : Fin 32) (a : Account) (s : State) :
    (s.setSlot i a).slots[j] = if j = i then a else s.slots[j] := by
  simp only [State.setSlot_slots, Fin.getElem_fin, Vector.getElem_set]
  by_cases h : j = i
  · subst h; simp
  · simp [h, show ¬i.val = j.val from fun hc => h (Fin.ext hc.symm)]

/-! ## The top list (R133 to R136) -/

theorem topDescends_iff (l : List TopEntry) :
    topDescends l = true ↔ l.Pairwise fun a b => b.demand.toNat ≤ a.demand.toNat := by
  induction l with
  | nil => simp [topDescends]
  | cons a l ih =>
    cases l with
    | nil => simp [topDescends]
    | cons b rest =>
      simp only [topDescends, Bool.and_eq_true, decide_eq_true_eq, ih, List.pairwise_cons,
        List.mem_cons, forall_eq_or_imp]
      constructor
      · rintro ⟨h, h1, h2⟩
        exact ⟨⟨h, fun x hx => (h1 x hx).trans h⟩, h1, h2⟩
      · rintro ⟨⟨h, _⟩, h1, h2⟩
        exact ⟨h, h1, h2⟩

theorem mem_placeEntry (e x : TopEntry) (l : List TopEntry) :
    x ∈ placeEntry e l ↔ x = e ∨ x ∈ l := by
  induction l with
  | nil => simp [placeEntry]
  | cons y ys ih =>
    simp only [placeEntry]
    split
    · simp only [List.mem_cons, ih]; tauto
    · simp

theorem length_placeEntry (e : TopEntry) (l : List TopEntry) :
    (placeEntry e l).length = l.length + 1 := by
  induction l with
  | nil => rfl
  | cons y ys ih => simp only [placeEntry]; split <;> simp [ih]

theorem placeEntry_descends {e : TopEntry} {l : List TopEntry} (h : topDescends l = true) :
    topDescends (placeEntry e l) = true := by
  rw [topDescends_iff] at h ⊢
  induction l with
  | nil => simp [placeEntry]
  | cons y ys ih =>
    rw [List.pairwise_cons] at h
    simp only [placeEntry]
    split
    · next hle =>
      rw [List.pairwise_cons]
      refine ⟨?_, ih h.2⟩
      intro x hx
      rcases (mem_placeEntry e x ys).1 hx with rfl | hx
      · exact hle
      · exact h.1 x hx
    · next hlt =>
      rw [List.pairwise_cons, List.pairwise_cons]
      refine ⟨?_, h⟩
      intro x hx
      rcases List.mem_cons.1 hx with rfl | hx
      · omega
      · have := h.1 x hx; omega

theorem topDescends_sublist {l m : List TopEntry} (hs : l.Sublist m)
    (h : topDescends m = true) : topDescends l = true := by
  rw [topDescends_iff] at h ⊢; exact h.sublist hs

/-- R134: in a descending list the new entry stands behind every entry not smaller and ahead of every
smaller one. -/
theorem placeEntry_eq {e : TopEntry} {l : List TopEntry} (h : topDescends l = true) :
    placeEntry e l =
      (l.filter fun x => decide (e.demand.toNat ≤ x.demand.toNat)) ++
        e :: l.filter fun x => decide (x.demand.toNat < e.demand.toNat) := by
  rw [topDescends_iff] at h
  induction l with
  | nil => rfl
  | cons x xs ih =>
    rw [List.pairwise_cons] at h
    simp only [placeEntry]
    by_cases hc : e.demand.toNat ≤ x.demand.toNat
    · rw [if_pos hc, ih h.2]
      simp [hc]
    · have hlt : ∀ y ∈ x :: xs, y.demand.toNat < e.demand.toNat := by
        intro y hy
        rcases List.mem_cons.1 hy with rfl | hy
        · omega
        · have := h.1 y hy; omega
      rw [if_neg hc, List.filter_eq_nil_iff.2, List.filter_eq_self.2]
      · rfl
      · intro y hy; exact decide_eq_true (hlt y hy)
      · intro y hy; have := hlt y hy; simp; omega

theorem offerEntry_descends {n : Nat} {e : TopEntry} {l : List TopEntry}
    (h : topDescends l = true) : topDescends (offerEntry n e l) = true := by
  simp only [offerEntry]
  split
  · exact placeEntry_descends h
  · split
    · exact h
    · split
      · exact placeEntry_descends (topDescends_sublist (List.dropLast_sublist l) h)
      · exact h

theorem length_offerEntry {n : Nat} {e : TopEntry} {l : List TopEntry} (h : l.length ≤ n) :
    (offerEntry n e l).length ≤ n := by
  simp only [offerEntry]
  split
  · rw [length_placeEntry]; omega
  · split
    · exact h
    · next hl =>
      split
      · rw [length_placeEntry, List.length_dropLast]
        have : l ≠ [] := by rintro rfl; simp at hl
        have := List.length_pos_iff.2 this
        omega
      · exact h

/-- R134, R135: the offer of a demand keeps the list's order. -/
theorem offerTop_descends {n : Nat} {oneDay : Bool} {e : TopEntry} {l : List TopEntry}
    (h : topDescends l = true) : topDescends (offerTop n oneDay e l) = true := by
  simp only [offerTop]
  split
  · split
    · exact placeEntry_descends (topDescends_sublist List.eraseP_sublist h)
    · exact h
  · exact offerEntry_descends h

/-- R134, R135: the offer of a demand keeps the list within N entries. -/
theorem length_offerTop {n : Nat} {oneDay : Bool} {e : TopEntry} {l : List TopEntry}
    (h : l.length ≤ n) : (offerTop n oneDay e l).length ≤ n := by
  simp only [offerTop]
  split
  · next held hd =>
    split
    · rw [length_placeEntry]
      have hm := List.mem_of_find?_eq_some hd
      have hp := List.find?_some hd
      have := List.length_eraseP_of_mem (p := fun x => decide (x.day = e.day)) hm hp
      have := List.length_pos_iff.2 (List.ne_nil_of_mem hm)
      omega
    · exact h
  · exact length_offerEntry h

theorem firstOfEachDay_sublist (seen : List Date) (l : List TopEntry) :
    (firstOfEachDay seen l).Sublist l := by
  induction l generalizing seen with
  | nil => simp [firstOfEachDay]
  | cons e rest ih =>
    simp only [firstOfEachDay]
    split
    · exact (ih seen).cons e
    · exact (ih _).cons_cons e

/-- R136: the list under a new contract keeps its order. -/
theorem trimTop_descends {c : ContractImage} {l : List TopEntry} (h : topDescends l = true) :
    topDescends (trimTop c l) = true := by
  simp only [trimTop]
  refine topDescends_sublist (List.take_sublist _ _) ?_
  split
  · exact topDescends_sublist (firstOfEachDay_sublist [] l) h
  · exact h

/-! ## The fold (R114 to R119) -/

/-- What the fold leaves: everything but the registers, the two flags, the window and the top
list. -/
theorem State.fold_frame (a : Account) (s : State) :
    (s.fold a).1 =
      { a with
        registers := (s.fold a).1.registers, overContract := (s.fold a).1.overContract,
        negativeNet := (s.fold a).1.negativeNet, window := (s.fold a).1.window,
        topList := (s.fold a).1.topList } := by
  simp only [State.fold]
  split
  · simp only [State.foldRegular]; split <;> rfl
  · rfl

theorem State.fold_kinds (a : Account) (s : State) :
    ∀ k ∈ (s.fold a).2, k.ofSlot = true := by
  have h1 : ∀ k ∈ s.foldLatches a, k.ofSlot = true := by
    simp only [State.foldLatches]; split <;> simp [AttnKind.ofSlot, AttnKind.sources]
  have h2 : ∀ d b, ∀ k ∈ demandLatches d b, k.ofSlot = true := by
    intro d b; simp only [demandLatches]; split <;> simp [AttnKind.ofSlot, AttnKind.sources]
  simp only [State.fold]
  split
  · simp only [State.foldRegular]
    split
    · intro k hk
      rcases List.mem_append.1 hk with hk | hk
      · exact h1 k hk
      · exact h2 _ _ k hk
    · exact h1
  · exact h1

theorem State.fold_descends {a : Account} {s : State} (h : topDescends a.topList = true) :
    topDescends (s.fold a).1.topList = true := by
  simp only [State.fold]
  split
  · simp only [State.foldRegular]
    split
    · simp only [State.evaluated]
      split
      · exact offerTop_descends h
      · exact h
    · exact h
  · exact h

/-! ## The stages of a boundary step (R111 to R124) -/

/-- An account record that the rules keep: the pending flags and the snapshot its state admits, and
the order of its top list. -/
structure Account.Kept (a : Account) : Prop where
  pending : a.pendingSound = true
  snapshot : a.snapshotSound = true
  top : topDescends a.topList = true

theorem State.foldStage_cases (a : Account) (s : State) :
    s.foldStage a = s.fold a ∧ (a.state = .active ∨ a.state = .retiring) ∨
      s.foldStage a = (a, []) := by
  simp only [State.foldStage]; split
  · next h => exact Or.inl ⟨rfl, h⟩
  · exact Or.inr rfl

/-- What stage 3 leaves. -/
theorem State.foldStage_frame (a : Account) (s : State) :
    (s.foldStage a).1 =
      { a with
        registers := (s.foldStage a).1.registers, overContract := (s.foldStage a).1.overContract,
        negativeNet := (s.foldStage a).1.negativeNet, window := (s.foldStage a).1.window,
        topList := (s.foldStage a).1.topList } := by
  rcases s.foldStage_cases a with ⟨h, -⟩ | h <;> rw [h]
  exact s.fold_frame a

theorem State.foldStage_kinds (a : Account) (s : State) :
    ∀ k ∈ (s.foldStage a).2, k.ofSlot = true := by
  rcases s.foldStage_cases a with ⟨h, -⟩ | h <;> rw [h]
  · exact s.fold_kinds a
  · simp

theorem State.foldStage_descends {a : Account} {s : State} (h : topDescends a.topList = true) :
    topDescends (s.foldStage a).1.topList = true := by
  rcases s.foldStage_cases a with ⟨hf, -⟩ | hf <;> rw [hf]
  · exact State.fold_descends h
  · exact h

theorem State.foldStage_kept {a : Account} {s : State} (h : a.Kept) : (s.foldStage a).1.Kept := by
  have ht := State.foldStage_descends (s := s) h.top
  refine ⟨?_, ?_, ht⟩
  · rw [State.foldStage_frame]; exact h.pending
  · rw [State.foldStage_frame]; exact h.snapshot

theorem suspendStage_kept {a : Account} (h : a.Kept) : (suspendStage a).Kept := by
  obtain ⟨hp, hs, ht⟩ := h
  simp only [suspendStage]
  split
  · next hc =>
    refine ⟨?_, ?_, ht⟩ <;>
      simp_all [Account.pendingSound, Account.snapshotSound]
  · split
    · next hc =>
      refine ⟨?_, ?_, ht⟩ <;>
        simp_all [Account.pendingSound, Account.snapshotSound]
    · exact ⟨hp, hs, ht⟩

/-- R120: stage 4 leaves the contract part, the amendment, the snapshot and the counted state. -/
theorem suspendStage_frame (a : Account) :
    (suspendStage a).contract = a.contract ∧ (suspendStage a).amendment = a.amendment ∧
      (suspendStage a).snapshot = a.snapshot ∧
      (suspendStage a).state.counted = a.state.counted ∧
      ((suspendStage a).state = .retiring ↔ a.state = .retiring) ∧
      ((suspendStage a).state = .vacant ↔ a.state = .vacant) ∧
      (suspendStage a).topList = a.topList := by
  simp only [suspendStage]
  split
  · next h => simp [h.1, AccountState.counted]
  · split
    · next h => simp [h.1, AccountState.counted]
    · simp

theorem amendStage_kinds (closedNow : Bool) (a : Account) :
    ∀ k ∈ (amendStage closedNow a).latched, k.ofSlot = true := by
  simp only [amendStage]; split <;> simp [AttnKind.ofSlot, AttnKind.sources]

theorem amendStage_state (closedNow : Bool) (a : Account) :
    (amendStage closedNow a).account.state = a.state := by
  simp only [amendStage]; split <;> rfl

theorem amendStage_kept {closedNow : Bool} {a : Account} (h : a.Kept) :
    (amendStage closedNow a).account.Kept := by
  simp only [amendStage]
  split
  · exact ⟨h.pending, h.snapshot, trimTop_descends h.top⟩
  · exact h

theorem closeAndAmend_kinds (time : CalTime) (a : Account) :
    ∀ k ∈ (closeAndAmend time a).latched, k.ofSlot = true := by
  simp only [closeAndAmend]
  split
  · simp [finalClose, AttnKind.ofSlot, AttnKind.sources]
  · split
    · intro k hk
      rcases List.mem_cons.1 hk with rfl | hk
      · rfl
      · exact amendStage_kinds _ _ k hk
    · exact amendStage_kinds _ _

theorem closeAndAmend_kept {time : CalTime} {a : Account} (h : a.Kept) :
    (closeAndAmend time a).account.Kept := by
  obtain ⟨hp, hs, ht⟩ := h
  simp only [closeAndAmend]
  split
  · next hr =>
    refine ⟨?_, rfl, rfl⟩
    simp_all [finalClose, closed, Account.pendingSound]
  · split
    · next hc =>
      refine amendStage_kept ⟨?_, ?_, rfl⟩
      · simp_all [closed, Account.pendingSound]
      · have hst : a.state = .active ∨ a.state = .suspended := by
          simp_all [Account.pendingSound]
        rcases hst with hst | hst <;> simp [closed, Account.snapshotSound, hst]
    · exact amendStage_kept ⟨hp, hs, ht⟩

/-- A step never leaves a slot VACANT that was not. -/
theorem closeAndAmend_vacant (time : CalTime) (a : Account) (h : a.state ≠ .vacant) :
    (closeAndAmend time a).account.state ≠ .vacant := by
  simp only [closeAndAmend]
  split
  · simp [finalClose]
  · split
    · simpa [amendStage_state, closed] using h
    · simpa [amendStage_state] using h

/-- R97: the terms counted before a step are those counted after it and those it releases. -/
theorem amendStage_terms (closedNow : Bool) (a : Account) (h : a.state.counted = true)
    (k : Fin 16) :
    termsNaming k a.countedTerms =
      termsNaming k (amendStage closedNow a).account.countedTerms +
        termsNaming k (amendStage closedNow a).released := by
  simp only [amendStage]
  split
  · next c hc =>
    have ha : ∃ m, a.amendment = some ⟨m, c⟩ := by
      simp only [dueAmendment] at hc
      split at hc
      · next h => simp at hc; subst hc; exact ⟨_, h⟩
      · next h => split at hc <;> simp at hc; subst hc; exact ⟨_, h⟩
      · simp at hc
      · simp at hc
    obtain ⟨m, ha⟩ := ha
    simp only [Account.countedTerms, applied, h, if_true, Account.amendmentTerms, ha,
      termsNaming_append, termsNaming_nil]
    omega
  · simp

theorem closeAndAmend_terms (time : CalTime) (a : Account) (h : a.state.counted = true)
    (k : Fin 16) :
    termsNaming k a.countedTerms =
      termsNaming k (closeAndAmend time a).account.countedTerms +
        termsNaming k (closeAndAmend time a).released := by
  simp only [closeAndAmend]
  split
  · simp only [finalClose, Account.countedTerms, h, if_true, termsNaming_append]
    simp [AccountState.counted, Account.amendmentTerms]
  · split
    · exact amendStage_terms true (closed false false time a) h k
    · exact amendStage_terms false a h k

theorem AccountState.counted_of_swept {x : AccountState} (h : x.swept = true) :
    x.counted = true := by cases x <;> simp_all [AccountState.swept, AccountState.counted]

section
variable (a : Account) (s : State)

theorem State.nextPeriod_frame :
    s.nextPeriod a = { a with period := (s.nextPeriod a).period } := by
  simp only [State.nextPeriod]; split <;> rfl

/-- R111 to R124: what a whole step keeps and records. -/
theorem State.accountStep_lastBoundary :
    (s.accountStep a).account.lastBoundary = s.sweep.b := by
  simp only [State.accountStep]; split <;> rfl

theorem State.accountStep_kinds : ∀ k ∈ (s.accountStep a).latched, k.ofSlot = true := by
  simp only [State.accountStep]
  split
  · simp
  · intro k hk
    rcases List.mem_append.1 hk with hk | hk
    · exact s.foldStage_kinds a k hk
    · exact closeAndAmend_kinds _ _ k hk

theorem State.accountStep_kept (h : a.Kept) :
    (s.accountStep a).account.Kept := by
  simp only [State.accountStep]
  split
  · next ho =>
    obtain ⟨hp, hn, ht⟩ := h
    simp only [State.recordBoundary, State.nextPeriod]
    refine ⟨?_, ?_, ?_⟩
    · simp_all [Account.pendingSound]
    · simp [Account.snapshotSound]
    · simpa using ht
  · have hk := closeAndAmend_kept (time := s.sweep.time)
      (suspendStage_kept (s.foldStage_kept h))
    simp only [State.recordBoundary]
    rw [State.nextPeriod_frame]
    exact ⟨hk.pending, hk.snapshot, hk.top⟩

theorem State.accountStep_vacant (h : a.state ≠ .vacant) :
    (s.accountStep a).account.state ≠ .vacant := by
  simp only [State.accountStep]
  split
  · simp [State.recordBoundary, State.nextPeriod]
  · simp only [State.recordBoundary]
    rw [State.nextPeriod_frame]
    refine closeAndAmend_vacant _ _ ?_
    rw [Ne, (suspendStage_frame _).2.2.2.2.2.1, State.foldStage_frame]
    exact h

theorem State.accountStep_terms (h : a.state.counted = true) (k : Fin 16) :
    termsNaming k a.countedTerms =
      termsNaming k (s.accountStep a).account.countedTerms +
        termsNaming k (s.accountStep a).released := by
  simp only [State.accountStep]
  split
  · next ho =>
    simp [State.recordBoundary, State.nextPeriod, Account.countedTerms, ho,
      AccountState.counted, Account.amendmentTerms]
  · have hf := suspendStage_frame (s.foldStage a).1
    have hfs : (s.foldStage a).1.state = a.state ∧ (s.foldStage a).1.contract = a.contract ∧
        (s.foldStage a).1.amendment = a.amendment := by
      rw [State.foldStage_frame]; exact ⟨rfl, rfl, rfl⟩
    have hc : termsNaming k a.countedTerms =
        termsNaming k (suspendStage (s.foldStage a).1).countedTerms := by
      simp only [Account.countedTerms, Account.amendmentTerms, hf.1, hf.2.1, hf.2.2.2.1,
        hfs.1, hfs.2.1, hfs.2.2]
    rw [hc, closeAndAmend_terms s.sweep.time _ (by rw [hf.2.2.2.1, hfs.1]; exact h)]
    congr 1
    simp only [State.recordBoundary]
    rw [State.nextPeriod_frame]
    rfl

end

/-! ## enterFaulted and boundaryStep -/

section
variable (i : Fin 32) (s : State)

@[simp] theorem State.enterFaulted_device : (s.enterFaulted i).device = s.device := rfl
@[simp] theorem State.enterFaulted_clock : (s.enterFaulted i).clock = s.clock := rfl
@[simp] theorem State.enterFaulted_tariff : (s.enterFaulted i).tariff = s.tariff := rfl
@[simp] theorem State.enterFaulted_links : (s.enterFaulted i).links = s.links := rfl
@[simp] theorem State.enterFaulted_holdTime : (s.enterFaulted i).holdTime = s.holdTime := rfl
@[simp] theorem State.enterFaulted_queue : (s.enterFaulted i).queue = s.queue := rfl
@[simp] theorem State.enterFaulted_channels : (s.enterFaulted i).channels = s.channels := rfl
@[simp] theorem State.enterFaulted_sweep : (s.enterFaulted i).sweep = s.sweep := rfl
@[simp] theorem State.enterFaulted_directory : (s.enterFaulted i).directory = s.directory := rfl
@[simp] theorem State.enterFaulted_port : (s.enterFaulted i).port = s.port := rfl
@[simp] theorem State.enterFaulted_pending : (s.enterFaulted i).pending = s.pending := rfl
@[simp] theorem State.enterFaulted_slots :
    (s.enterFaulted i).slots = s.slots.set i (faultedRecord s.slots[i]) := rfl

theorem State.mem_enterFaulted (q : AttnPair) :
    q ∈ (s.enterFaulted i).attention.pendingSet ↔
      q = ⟨.recordFault, i⟩ ∨ q ∈ s.attention.pendingSet := by
  simp [State.enterFaulted]

theorem State.boundaryStep_of_verified {i : Fin 32} {s : State} (h : s.verified i = true) :
    s.boundaryStep i =
      (((s.setSlot i (s.accountStep s.slots[i]).account).releaseTerms
        (s.accountStep s.slots[i]).released).latchAll (s.accountStep s.slots[i]).latched i) :=
  if_pos h

theorem State.boundaryStep_of_not_verified {i : Fin 32} {s : State} (h : s.verified i = false) :
    s.boundaryStep i = s.enterFaulted i := if_neg (by simp [h])

@[simp] theorem State.boundaryStep_device : (s.boundaryStep i).device = s.device := by
  simp only [State.boundaryStep]; split <;> simp
@[simp] theorem State.boundaryStep_clock : (s.boundaryStep i).clock = s.clock := by
  simp only [State.boundaryStep]; split <;> simp
@[simp] theorem State.boundaryStep_tariff : (s.boundaryStep i).tariff = s.tariff := by
  simp only [State.boundaryStep]; split <;> simp
@[simp] theorem State.boundaryStep_links : (s.boundaryStep i).links = s.links := by
  simp only [State.boundaryStep]; split <;> simp
@[simp] theorem State.boundaryStep_holdTime : (s.boundaryStep i).holdTime = s.holdTime := by
  simp only [State.boundaryStep]; split <;> simp
@[simp] theorem State.boundaryStep_queue : (s.boundaryStep i).queue = s.queue := by
  simp only [State.boundaryStep]; split <;> simp
@[simp] theorem State.boundaryStep_sweep : (s.boundaryStep i).sweep = s.sweep := by
  simp only [State.boundaryStep]; split <;> simp
@[simp] theorem State.boundaryStep_directory : (s.boundaryStep i).directory = s.directory := by
  simp only [State.boundaryStep]; split <;> simp
@[simp] theorem State.boundaryStep_port : (s.boundaryStep i).port = s.port := by
  simp only [State.boundaryStep]; split <;> simp
@[simp] theorem State.boundaryStep_pending : (s.boundaryStep i).pending = s.pending := by
  simp only [State.boundaryStep]; split <;> simp
@[simp] theorem State.boundaryStep_mask :
    (s.boundaryStep i).attention.mask = s.attention.mask := by
  simp only [State.boundaryStep]; split
  · simp
  · rfl
@[simp] theorem State.boundaryStep_awake : (s.boundaryStep i).awake = s.awake := by
  simp only [State.awake, State.boundaryStep_device]

/-- R114, R131, R163: the kinds the fold latches stand in the pending set after the step. -/
theorem State.mem_boundaryStep_of_fold {k : AttnKind} (h : s.verified i = true)
    (ha : s.slots[i].state = .active ∨ s.slots[i].state = .retiring)
    (hk : k ∈ (s.fold s.slots[i]).2) :
    ⟨k, i.val⟩ ∈ (s.boundaryStep i).attention.pendingSet := by
  rw [State.boundaryStep_of_verified h, State.mem_latchAll]
  refine Or.inl ⟨?_, rfl⟩
  have ho : s.slots[i].state ≠ .opening := by rcases ha with h | h <;> rw [h] <;> decide
  simp only [State.accountStep, State.foldStage]
  rw [if_neg ho, if_pos ha]
  exact List.mem_append_left _ hk

/-- The record a boundary step leaves in its slot. -/
def State.stepped (i : Fin 32) (s : State) : Account :=
  if s.verified i then (s.accountStep s.slots[i]).account else faultedRecord s.slots[i]

theorem State.boundaryStep_slots :
    (s.boundaryStep i).slots = s.slots.set i (s.stepped i) := by
  simp only [State.boundaryStep, State.stepped]; split <;> simp

theorem State.boundaryStep_slot (j : Fin 32) :
    (s.boundaryStep i).slots[j] = if j = i then s.stepped i else s.slots[j] := by
  simp only [State.boundaryStep_slots]
  exact State.setSlot_slot i j _ s

theorem State.boundaryStep_channel (k : Fin 16) :
    (s.boundaryStep i).channels[k] =
      { s.channels[k] with referenceCount := (s.boundaryStep i).channels[k].referenceCount } := by
  by_cases h : s.verified i = true
  · rw [State.boundaryStep_of_verified h]
    simp only [State.latchAll_channels]
    rw [State.releaseTerms_channel]; rfl
  · rw [State.boundaryStep_of_not_verified (by simpa using h)]; rfl

theorem State.mem_boundaryStep {q : AttnPair}
    (h : q ∈ (s.boundaryStep i).attention.pendingSet) :
    q ∈ s.attention.pendingSet ∨ (q.source = i.val ∧ q.kind.ofSlot = true) := by
  by_cases hv : s.verified i = true
  · rw [State.boundaryStep_of_verified hv, State.mem_latchAll] at h
    rcases h with ⟨h1, h2⟩ | h
    · exact Or.inr ⟨h2, s.accountStep_kinds _ _ h1⟩
    · exact Or.inl h
  · rw [State.boundaryStep_of_not_verified (by simpa using hv), State.mem_enterFaulted] at h
    rcases h with rfl | h
    · exact Or.inr ⟨rfl, rfl⟩
    · exact Or.inl h

theorem State.mem_boundaryStep_of_mem {q : AttnPair} (h : q ∈ s.attention.pendingSet) :
    q ∈ (s.boundaryStep i).attention.pendingSet := by
  by_cases hv : s.verified i = true
  · rw [State.boundaryStep_of_verified hv, State.mem_latchAll]; exact Or.inr h
  · rw [State.boundaryStep_of_not_verified (by simpa using hv), State.mem_enterFaulted]
    exact Or.inr h

theorem AttnKind.ofSlot_sources {k : AttnKind} (h : k.ofSlot = true) (i : Fin 32) :
    i.val < k.sources := by
  simp only [AttnKind.ofSlot, beq_iff_eq] at h; rw [h]; exact i.isLt

theorem State.enterFaulted_attention {s : State} (h : s.attention.sound = true) :
    (s.enterFaulted i).attention.sound = true := State.latch_sound i.isLt h

theorem State.boundaryStep_attention {s : State} (h : s.attention.sound = true) :
    (s.boundaryStep i).attention.sound = true := by
  by_cases hv : s.verified i = true
  · rw [State.boundaryStep_of_verified hv]
    exact State.latchAll_sound
      (fun k hk => AttnKind.ofSlot_sources (s.accountStep_kinds _ k hk) i) h
  · rw [State.boundaryStep_of_not_verified (by simpa using hv)]
    exact State.enterFaulted_attention i h

/-! ## bring and accountCommand (R13, R23, R109) -/

/-- R13 stages 2 and 3: nothing, the boundary step of an account one behind, or the entry to
FAULTED of one that fails verification; the last two in a swept state alone. -/
theorem State.bring_cases :
    (s.bring i = s ∧ (s.slots[i].state.swept = true → s.verified i = true)) ∨
    (s.bring i = s.boundaryStep i ∧ s.oneBehind i = true ∧ s.slots[i].state.swept = true) ∨
    (s.bring i = s.enterFaulted i ∧ s.verified i = false ∧
      s.slots[i].state.swept = true) := by
  simp only [State.bring]
  split
  · next h =>
    refine Or.inr (Or.inl ⟨rfl, h, ?_⟩)
    simp only [State.oneBehind, Bool.and_eq_true] at h
    exact h.1.2
  · split
    · next h =>
      simp only [Bool.and_eq_true, Bool.not_eq_true'] at h
      exact Or.inr (Or.inr ⟨rfl, h.2, h.1⟩)
    · next h =>
      simp only [Bool.and_eq_true, Bool.not_eq_true', not_and, Bool.not_eq_false] at h
      exact Or.inl ⟨rfl, h⟩

/-- An account command answers for an absent account, refuses on a FAULTED one, or comes to its own
rule on the state that R13 brings. -/
theorem accountCommand_cases (account : Word) (permitted : Bool)
    (own : Fin 32 → State → State × Response) (s : State) :
    (s.lookup account = none ∧
      accountCommand account permitted own s = (s, ⟨.noAccount, []⟩)) ∨
    (∃ i, s.lookup account = some i ∧ (s.bring i).slots[i].state = .faulted ∧
      permitted = false ∧
      accountCommand account permitted own s = (s.bring i, ⟨.recordFault, []⟩)) ∨
    (∃ i, s.lookup account = some i ∧
      ((s.bring i).slots[i].state = .faulted → permitted = true) ∧
      accountCommand account permitted own s = own i (s.bring i)) := by
  simp only [accountCommand]
  split
  · next h => exact Or.inl ⟨h, rfl⟩
  · next i h =>
    split
    · next hf => exact Or.inr (Or.inl ⟨i, h, hf.1, hf.2, rfl⟩)
    · next hf =>
      refine Or.inr (Or.inr ⟨i, h, ?_, rfl⟩)
      intro hs
      by_contra hp
      exact hf ⟨hs, by simpa using hp⟩

end

/-! ## The account operations -/

section
variable (i : Fin 32) (c : ContractImage) (s : State)

@[simp] theorem State.vacate_device : (s.vacate i).device = s.device := by
  simp [State.vacate]
@[simp] theorem State.vacate_clock : (s.vacate i).clock = s.clock := by
  simp [State.vacate]
@[simp] theorem State.vacate_tariff : (s.vacate i).tariff = s.tariff := by
  simp [State.vacate]
@[simp] theorem State.vacate_links : (s.vacate i).links = s.links := by
  simp [State.vacate]
@[simp] theorem State.vacate_holdTime : (s.vacate i).holdTime = s.holdTime := by
  simp [State.vacate]
@[simp] theorem State.vacate_queue : (s.vacate i).queue = s.queue := by
  simp [State.vacate]
@[simp] theorem State.vacate_sweep : (s.vacate i).sweep = s.sweep := by
  simp [State.vacate]
@[simp] theorem State.vacate_attention : (s.vacate i).attention = s.attention := by
  simp [State.vacate]
@[simp] theorem State.vacate_port : (s.vacate i).port = s.port := by
  simp [State.vacate]
@[simp] theorem State.vacate_pending : (s.vacate i).pending = s.pending := by
  simp [State.vacate]
@[simp] theorem State.vacate_slots :
    (s.vacate i).slots = s.slots.set i Account.cleared := by simp [State.vacate]
@[simp] theorem State.vacate_directory :
    (s.vacate i).directory = removeEntry i s.directory := by simp [State.vacate]

/-- R18: the terms still counted are released. -/
theorem State.vacate_channel (k : Fin 16) :
    (s.vacate i).channels[k] =
      { s.channels[k] with
        referenceCount := countReleased s.channels[k].referenceCount
          (termsNaming k s.slots[i].countedTerms) } := by
  simp only [State.vacate, State.setDirectory_channels, State.setSlot_channels]
  exact State.releaseTerms_channel ..

/-- R160: the record an immediate final close leaves in its slot. -/
theorem State.closeFaulted_slots :
    (s.closeFaulted i).slots = s.slots.set i { closed true true s.clock.time s.slots[i] with
      amendment := none, state := .retired } := by
  simp only [State.closeFaulted, State.latch_slots, State.recount_slots, State.setSlot_slots]

@[simp] theorem State.repair_device : (s.repair i c).device = s.device := by
  simp [State.repair]
@[simp] theorem State.closeFaulted_device : (s.closeFaulted i).device = s.device := by
  simp [State.closeFaulted]
@[simp] theorem State.repair_clock : (s.repair i c).clock = s.clock := by
  simp [State.repair]
@[simp] theorem State.closeFaulted_clock : (s.closeFaulted i).clock = s.clock := by
  simp [State.closeFaulted]
@[simp] theorem State.repair_tariff : (s.repair i c).tariff = s.tariff := by
  simp [State.repair]
@[simp] theorem State.closeFaulted_tariff : (s.closeFaulted i).tariff = s.tariff := by
  simp [State.closeFaulted]
@[simp] theorem State.repair_links : (s.repair i c).links = s.links := by
  simp [State.repair]
@[simp] theorem State.closeFaulted_links : (s.closeFaulted i).links = s.links := by
  simp [State.closeFaulted]
@[simp] theorem State.repair_holdTime : (s.repair i c).holdTime = s.holdTime := by
  simp [State.repair]
@[simp] theorem State.closeFaulted_holdTime : (s.closeFaulted i).holdTime = s.holdTime := by
  simp [State.closeFaulted]
@[simp] theorem State.repair_queue : (s.repair i c).queue = s.queue := by
  simp [State.repair]
@[simp] theorem State.closeFaulted_queue : (s.closeFaulted i).queue = s.queue := by
  simp [State.closeFaulted]
@[simp] theorem State.repair_sweep : (s.repair i c).sweep = s.sweep := by
  simp [State.repair]
@[simp] theorem State.closeFaulted_sweep : (s.closeFaulted i).sweep = s.sweep := by
  simp [State.closeFaulted]
@[simp] theorem State.repair_directory : (s.repair i c).directory = s.directory := by
  simp [State.repair]
@[simp] theorem State.closeFaulted_directory : (s.closeFaulted i).directory = s.directory := by
  simp [State.closeFaulted]
@[simp] theorem State.repair_port : (s.repair i c).port = s.port := by
  simp [State.repair]
@[simp] theorem State.closeFaulted_port : (s.closeFaulted i).port = s.port := by
  simp [State.closeFaulted]
@[simp] theorem State.repair_pending : (s.repair i c).pending = s.pending := by
  simp [State.repair]
@[simp] theorem State.closeFaulted_pending : (s.closeFaulted i).pending = s.pending := by
  simp [State.closeFaulted]

end

/-! ## Counted terms over all slots (R97) -/

theorem termsNaming_allTerms (k : Fin 16) (s : State) :
    termsNaming k s.allTerms = ∑ i : Fin 32, termsNaming k s.slots[i].countedTerms := by
  have h : ∀ l : List (Fin 32),
      termsNaming k (l.flatMap fun i => s.slots[i].countedTerms) =
        (l.map fun i => termsNaming k s.slots[i].countedTerms).sum := by
    intro l
    induction l with
    | nil => rfl
    | cons i l ih => simp only [List.flatMap_cons, termsNaming_append, ih, List.map_cons,
        List.sum_cons]
  rw [State.allTerms, h, slotNumbers, Fin.sum_univ_def]

/-- Replacing one account changes the counted terms by its own. -/
theorem termsNaming_setSlot (k : Fin 16) (i : Fin 32) (a : Account) (s : State) :
    termsNaming k (s.setSlot i a).allTerms + termsNaming k s.slots[i].countedTerms =
      termsNaming k s.allTerms + termsNaming k a.countedTerms := by
  simp only [termsNaming_allTerms]
  rw [← Finset.add_sum_erase _ _ (Finset.mem_univ i),
    ← Finset.add_sum_erase Finset.univ
      (fun j : Fin 32 => termsNaming k s.slots[j].countedTerms) (Finset.mem_univ i)]
  have h : ∀ j ∈ Finset.univ.erase i,
      termsNaming k (s.setSlot i a).slots[j].countedTerms =
        termsNaming k s.slots[j].countedTerms := by
    intro j hj
    rw [State.setSlot_slot, if_neg (Finset.ne_of_mem_erase hj)]
  rw [Finset.sum_congr rfl h, State.setSlot_slot, if_pos rfl]
  omega

/-- One account's counted terms are among all. -/
theorem termsNaming_le_allTerms (k : Fin 16) (i : Fin 32) (s : State) :
    termsNaming k s.slots[i].countedTerms ≤ termsNaming k s.allTerms := by
  rw [termsNaming_allTerms]
  exact Finset.single_le_sum (f := fun i : Fin 32 => termsNaming k s.slots[i].countedTerms)
    (fun _ _ => Nat.zero_le _) (Finset.mem_univ i)

/-- The counted terms depend on the slots alone. -/
theorem State.allTerms_congr {s t : State} (h : s.slots = t.slots) : s.allTerms = t.allTerms := by
  simp only [State.allTerms, h]

end Sys2Proof.Machine
end

