-- ==== Sys2Proof/Laws/Encoding.lean ====
section
/-!
SUPPORT. The byte encodings: lengths, and that reading bytes back gives what was written (R182);
the envelope and the segments (R175, R176).
-/

namespace Sys2Proof

@[simp] theorem length_halfBytes (h : Half) : (halfBytes h).length = 2 := rfl
@[simp] theorem length_wordBytes (w : Word) : (wordBytes w).length = 4 := rfl
@[simp] theorem length_quantityBytes (q : Quantity) : (quantityBytes q).length = 6 := rfl
@[simp] theorem length_timeBytes (t : TimeImage) : (timeBytes t).length = 6 := rfl
@[simp] theorem length_contractBytes (c : ContractImage) : (contractBytes c).length = 33 := rfl

/-- Two bytes read back. -/
theorem halfOf_halfBytes (h : Half) : halfOf (h.extractLsb' 8 8) (h.extractLsb' 0 8) = h := by
  apply BitVec.eq_of_getLsbD_eq
  intro i hi
  simp only [halfOf, BitVec.getLsbD_append, BitVec.getLsbD_extractLsb', Nat.zero_add]
  split
  · next h => simp [h]
  · next h => rw [show 8 + (i - 8) = i by omega]; simp; omega

/-- Four bytes read back. -/
theorem wordOf_wordBytes (w : Word) :
    wordOf (w.extractLsb' 24 8) (w.extractLsb' 16 8) (w.extractLsb' 8 8) (w.extractLsb' 0 8) =
      w := by
  apply BitVec.eq_of_getLsbD_eq
  intro i hi
  simp only [wordOf, BitVec.getLsbD_append, BitVec.getLsbD_extractLsb', Nat.zero_add]
  split
  · next h => simp [h]
  · split
    · next h => rw [show 8 + (i - 8) = i by omega]; simp; omega
    · split
      · next h => rw [show 16 + (i - 8 - 8) = i by omega]; simp; omega
      · next h => rw [show 24 + (i - 8 - 8 - 8) = i by omega]; simp; omega

/-- Six bytes read back. -/
theorem quantityOf_quantityBytes (q : Quantity) :
    quantityOf (q.extractLsb' 40 8) (q.extractLsb' 32 8) (q.extractLsb' 24 8)
      (q.extractLsb' 16 8) (q.extractLsb' 8 8) (q.extractLsb' 0 8) = q := by
  apply BitVec.eq_of_getLsbD_eq
  intro i hi
  simp only [quantityOf, BitVec.getLsbD_append, BitVec.getLsbD_extractLsb', Nat.zero_add]
  split
  · next h => simp [h]
  · split
    · next h => rw [show 8 + (i - 8) = i by omega]; simp; omega
    · split
      · next h => rw [show 16 + (i - 8 - 8) = i by omega]; simp; omega
      · split
        · next h => rw [show 24 + (i - 8 - 8 - 8) = i by omega]; simp; omega
        · split
          · next h => rw [show 32 + (i - 8 - 8 - 8 - 8) = i by omega]; simp; omega
          · next h => rw [show 40 + (i - 8 - 8 - 8 - 8 - 8) = i by omega]; simp; omega

/-- The 33 bytes of an image read back. -/
theorem exists_cons {n : Nat} {l : List Byte} (h : l.length = n + 1) :
    ∃ a t, l = a :: t ∧ t.length = n := by
  cases l with
  | nil => simp at h
  | cons a t => exact ⟨a, t, rfl, by simpa using h⟩

theorem contractOf_eq_none {ops : List Byte} (h : ops.length ≠ 33) : contractOf ops = none := by
  unfold contractOf
  split
  · exact absurd rfl h
  · rfl

theorem contractOf_contractBytes (c : ContractImage) : contractOf (contractBytes c) = some c := by
  simp only [contractBytes, wordBytes, halfBytes, List.cons_append, List.nil_append, contractOf,
    wordOf_wordBytes, halfOf_halfBytes]

/-- A stored contract has the terms of the image it was stored from. -/
theorem ContractImage.stored_terms (c : ContractImage) : c.stored.terms = c.terms := by
  simp only [ContractImage.terms, ContractImage.places, ContractImage.stored, storedPlace]
  generalize c.feedCount.toNat = n
  rcases n with _ | _ | _ | _ | _ | _ | n <;> simp

namespace Machine

theorem length_envelope (head : Byte) (content : List Byte) :
    (envelope head content).length = content.length + 4 := by
  simp [envelope]

/-- R175 checks 1 and 2 over a whole message: what remains is the decoding. -/
theorem judgeRequest_envelope {code : Byte} {ops : List Byte} (h : ops.length ≤ 252) :
    judgeRequest (envelope code ops) =
      match decodeRequest code ops with
      | .unknownCommand => .acted ⟨.unknownCommand, [code]⟩
      | .badLength => .acted ⟨.badOperand, []⟩
      | .command c => .dispatched c := by
  have hn : (u8 ops.length).toNat = ops.length := by
    simp only [u8, BitVec.toNat_ofNat]; omega
  have hl : (envelope code ops).length = ops.length + 4 := length_envelope code ops
  simp only [envelope, List.cons_append] at hl ⊢
  simp only [judgeRequest, hn, hl]
  rw [if_neg (by omega)]
  simp only [List.take_left', List.drop_left', ne_eq, not_true, if_false]
  cases decodeRequest code ops <;> rfl

/-- Data of at most 252 bytes makes one segment. -/
theorem Response.segments_short {r : Response} (h : r.data.length ≤ 252) :
    r.segments = [envelope r.status.code r.data] := by
  simp only [Response.segments]
  cases hl : r.data.length with
  | zero => simp [cutData, segmentsOf]
  | succ n => rw [hl] at h; simp [cutData, segmentsOf, Config.segmentData, hl, h]

/-- Data of 253 to 504 bytes makes two segments. -/
theorem Response.segments_long {r : Response} (h : 252 < r.data.length)
    (h2 : r.data.length ≤ 504) :
    r.segments =
      [envelope (r.status.code + 0x80) (r.data.take 252),
        envelope r.status.code (r.data.drop 252)] := by
  simp only [Response.segments]
  obtain ⟨n, hn⟩ : ∃ n, r.data.length = n + 2 := ⟨r.data.length - 2, by omega⟩
  rw [hn]
  have h3 : ¬r.data.length ≤ 252 := by omega
  have h4 : r.data.length - 252 ≤ 252 := by omega
  simp [cutData, segmentsOf, Config.segmentData, h3, h4]

end Machine

end Sys2Proof
end

