-- ==== Sys2Proof/Laws/PerInstr.lean ====
section
/-!
SUPPORT. The per-command family OperandLength: no well-formed request command carries more than 109
operand bytes, so its message fits the 256 bytes of R175.
-/

namespace Sys2Proof.Laws.OperandLength

/-- The operand bytes of a well-formed command, if it is a request, are at most 109. -/
def Statement (c : Instr) : Prop :=
  c.wf = true → ∀ code ops, requestOf c = some (code, ops) → ops.length ≤ 109

/-- A command that is no request has no operand bytes. -/
theorem of_event {c : Instr} (h : requestOf c = none) : Statement c := by
  intro _ code ops hr; rw [h] at hr; cases hr

/-- A request whose operands are counted. -/
theorem of_request {c : Instr} {code : Byte} {ops : List Byte}
    (h : requestOf c = some (code, ops)) (hl : c.wf = true → ops.length ≤ 109) :
    Statement c := by
  intro hw code' ops' hr; rw [h] at hr; cases hr; exact hl hw

theorem sendTransaction (message : List Byte) : Statement (.sendTransaction message) :=
  of_event rfl

theorem readTransaction (clocked : Nat) : Statement (.readTransaction clocked) :=
  of_event rfl

theorem voidTransaction (code : Option Byte) (later : Nat) :
    Statement (.voidTransaction code later) :=
  of_event rfl

theorem executionEnds : Statement (.executionEnds) :=
  of_event rfl

theorem readIdentity : Statement (.readIdentity) :=
  of_request rfl fun _ => by decide

theorem engineClear : Statement (.engineClear) :=
  of_request rfl fun _ => by decide

theorem setClock (time : TimeImage) (source : Byte) : Statement (.setClock time source) :=
  of_request rfl fun _ => by simp

theorem readClock : Statement (.readClock) :=
  of_request rfl fun _ => by decide

theorem setSubinterval (length : Half) : Statement (.setSubinterval length) :=
  of_request rfl fun _ => by simp

theorem loadSchedule (slot : Byte) (body : List Byte) : Statement (.loadSchedule slot body) :=
  of_request rfl fun h => by
    simp [Instr.wf] at h
    simp only [List.length_cons]; omega

theorem readSchedule (slot : Byte) : Statement (.readSchedule slot) :=
  of_request rfl fun _ => by simp

theorem loadHolidays (count : Byte) (body : List Byte) : Statement (.loadHolidays count body) :=
  of_request rfl fun h => by
    simp [Instr.wf] at h
    simp only [List.length_cons]; omega

theorem readHolidays : Statement (.readHolidays) :=
  of_request rfl fun _ => by decide

theorem setHoldTime (seconds : Byte) : Statement (.setHoldTime seconds) :=
  of_request rfl fun _ => by simp

theorem readLinks : Statement (.readLinks) :=
  of_request rfl fun _ => by decide

theorem registerMeter (channel : Byte) (identity : Quantity) (ratedPower : Word) :
    Statement (.registerMeter channel identity ratedPower) :=
  of_request rfl fun _ => by simp

theorem releaseMeter (channel : Byte) : Statement (.releaseMeter channel) :=
  of_request rfl fun _ => by simp

theorem setChannelPolicy (channel : Byte) (policy : Byte) (timeout : Byte) (ratedPower : Word) :
    Statement (.setChannelPolicy channel policy timeout ratedPower) :=
  of_request rfl fun _ => by simp

theorem readChannel (channel : Byte) : Statement (.readChannel channel) :=
  of_request rfl fun _ => by simp

theorem openAccount (image : ContractImage) : Statement (.openAccount image) :=
  of_request rfl fun _ => by simp

theorem listAccounts (start : Word) : Statement (.listAccounts start) :=
  of_request rfl fun _ => by simp

theorem readAccount (account : Word) : Statement (.readAccount account) :=
  of_request rfl fun _ => by simp

theorem readRegisters (account : Word) (period : Byte) :
    Statement (.readRegisters account period) :=
  of_request rfl fun _ => by simp

theorem readPeaks (account : Word) : Statement (.readPeaks account) :=
  of_request rfl fun _ => by simp

theorem readSweep : Statement (.readSweep) :=
  of_request rfl fun _ => by decide

theorem closePeriod (account : Word) : Statement (.closePeriod account) :=
  of_request rfl fun _ => by simp

theorem fetchClosed (account : Word) : Statement (.fetchClosed account) :=
  of_request rfl fun _ => by simp

theorem stageAmendment (account : Word) (image : ContractImage) :
    Statement (.stageAmendment account image) :=
  of_request rfl fun _ => by simp

theorem commitAmendment (account : Word) (mode : Byte) :
    Statement (.commitAmendment account mode) :=
  of_request rfl fun _ => by simp

theorem withdrawAmendment (account : Word) : Statement (.withdrawAmendment account) :=
  of_request rfl fun _ => by simp

theorem suspendAccount (account : Word) : Statement (.suspendAccount account) :=
  of_request rfl fun _ => by simp

theorem resumeAccount (account : Word) : Statement (.resumeAccount account) :=
  of_request rfl fun _ => by simp

theorem retireAccount (account : Word) : Statement (.retireAccount account) :=
  of_request rfl fun _ => by simp

theorem takeAttention : Statement (.takeAttention) :=
  of_request rfl fun _ => by decide

theorem dismiss (kinds : Half) (source : Option Byte) : Statement (.dismiss kinds source) :=
  of_request rfl fun _ => by cases source <;> simp

theorem setAttentionMask (mask : Half) : Statement (.setAttentionMask mask) :=
  of_request rfl fun _ => by simp

theorem readAttention (kind : Byte) : Statement (.readAttention kind) :=
  of_request rfl fun _ => by simp

theorem powerOn : Statement (.powerOn) :=
  of_event rfl

theorem mainPowerLoss : Statement (.mainPowerLoss) :=
  of_event rfl

theorem backupSupplyLoss : Statement (.backupSupplyLoss) :=
  of_event rfl

theorem resetPinAsserted : Statement (.resetPinAsserted) :=
  of_event rfl

theorem resetPinReleased : Statement (.resetPinReleased) :=
  of_event rfl

theorem storageDisturbance (slot : Fin 32) (contract : ContractImage) (checkCode : Half) :
    Statement (.storageDisturbance slot contract checkCode) :=
  of_event rfl

theorem secondPulseEdge : Statement (.secondPulseEdge) :=
  of_event rfl

theorem internalSecond : Statement (.internalSecond) :=
  of_event rfl

theorem pulseLossFallback : Statement (.pulseLossFallback) :=
  of_event rfl

theorem frameReceived (link : Fin 4) (first : LineChar) (rest : List LineChar) :
    Statement (.frameReceived link first rest) :=
  of_event rfl

theorem idleGap (link : Fin 4) : Statement (.idleGap link) :=
  of_event rfl

theorem lineReturnsToMarking (link : Fin 4) : Statement (.lineReturnsToMarking link) :=
  of_event rfl

theorem lineBreak (link : Fin 4) : Statement (.lineBreak link) :=
  of_event rfl

theorem transmissionComplete (link : Fin 4) : Statement (.transmissionComplete link) :=
  of_event rfl

theorem refreshPoint (link : Fin 4) : Statement (.refreshPoint link) :=
  of_event rfl

theorem holdExpiry (link : Fin 4) : Statement (.holdExpiry link) :=
  of_event rfl

theorem presenceTimerExpiry (channel : Fin 16) : Statement (.presenceTimerExpiry channel) :=
  of_event rfl

theorem takeFrameEntry : Statement (.takeFrameEntry) :=
  of_event rfl

theorem takeMarker : Statement (.takeMarker) :=
  of_event rfl

theorem sweepVisit : Statement (.sweepVisit) :=
  of_event rfl

theorem characterReceived (link : Fin 4) (char : Byte) (goodStop : Bool) :
    Statement (.characterReceived link char goodStop) :=
  of_event rfl

theorem outageSecondAdvance : Statement (.outageSecondAdvance) :=
  of_event rfl

end Sys2Proof.Laws.OperandLength
end

