-- ==== Sys2Proof/Laws/Sweep.lean ====
section
/-!
SUPPORT. The sweep, the clock and the power acts: what each leaves in every field (R27 to R31, R93,
R105 to R108, R183 to R189), and the calendar's own laws (R26, R27).
-/

namespace Sys2Proof.Machine

/-! ## The sweep -/

section
variable (i : Fin 32) (m : Marker) (g b : Word) (s : State)

@[simp] theorem State.adjustGap_device : (s.adjustGap g b).device = s.device := by
  simp only [State.adjustGap]; split <;> simp
@[simp] theorem State.adjustGap_clock : (s.adjustGap g b).clock = s.clock := by
  simp only [State.adjustGap]; split <;> simp
@[simp] theorem State.adjustGap_tariff : (s.adjustGap g b).tariff = s.tariff := by
  simp only [State.adjustGap]; split <;> simp
@[simp] theorem State.adjustGap_links : (s.adjustGap g b).links = s.links := by
  simp only [State.adjustGap]; split <;> simp
@[simp] theorem State.adjustGap_holdTime : (s.adjustGap g b).holdTime = s.holdTime := by
  simp only [State.adjustGap]; split <;> simp
@[simp] theorem State.adjustGap_queue : (s.adjustGap g b).queue = s.queue := by
  simp only [State.adjustGap]; split <;> simp
@[simp] theorem State.adjustGap_channels : (s.adjustGap g b).channels = s.channels := by
  simp only [State.adjustGap]; split <;> simp
@[simp] theorem State.adjustGap_sweep : (s.adjustGap g b).sweep = s.sweep := by
  simp only [State.adjustGap]; split <;> simp
@[simp] theorem State.adjustGap_directory : (s.adjustGap g b).directory = s.directory := by
  simp only [State.adjustGap]; split <;> simp
@[simp] theorem State.adjustGap_attention : (s.adjustGap g b).attention = s.attention := by
  simp only [State.adjustGap]; split <;> simp
@[simp] theorem State.adjustGap_port : (s.adjustGap g b).port = s.port := by
  simp only [State.adjustGap]; split <;> simp
@[simp] theorem State.adjustGap_pending : (s.adjustGap g b).pending = s.pending := by
  simp only [State.adjustGap]; split <;> simp

theorem State.adjustGap_slots :
    (s.adjustGap g b).slots =
      if 1 < g.toNat then Vector.ofFn fun i : Fin 32 => adjustedAccount b s.slots[i]
      else s.slots := by
  simp only [State.adjustGap]; split <;> rfl

@[simp] theorem State.startSweep_device : (s.startSweep m).device = s.device := by
  simp [State.startSweep, State.sealAll]
@[simp] theorem State.startSweep_tariff : (s.startSweep m).tariff = s.tariff := by
  simp [State.startSweep, State.sealAll]
@[simp] theorem State.startSweep_links : (s.startSweep m).links = s.links := by
  simp [State.startSweep, State.sealAll]
@[simp] theorem State.startSweep_holdTime : (s.startSweep m).holdTime = s.holdTime := by
  simp [State.startSweep, State.sealAll]
@[simp] theorem State.startSweep_directory : (s.startSweep m).directory = s.directory := by
  simp [State.startSweep, State.sealAll]
@[simp] theorem State.startSweep_attention : (s.startSweep m).attention = s.attention := by
  simp [State.startSweep, State.sealAll]
@[simp] theorem State.startSweep_port : (s.startSweep m).port = s.port := by
  simp [State.startSweep, State.sealAll]
@[simp] theorem State.startSweep_pending : (s.startSweep m).pending = s.pending := by
  simp [State.startSweep, State.sealAll]
@[simp] theorem State.startSweep_clock :
    (s.startSweep m).clock = { s.clock with markerWaiting := false } := by
  simp [State.startSweep, State.sealAll]
@[simp] theorem State.startSweep_queue :
    (s.startSweep m).queue = { s.queue with marker := none } := by
  simp [State.startSweep, State.sealAll]
@[simp] theorem State.startSweep_sweep :
    (s.startSweep m).sweep = startedSweep m s.sweep.b := by
  simp [State.startSweep]
theorem State.startSweep_channel (k : Fin 16) :
    (s.startSweep m).channels[k] = sealChannel s.channels[k] := by
  simp [State.startSweep, State.sealAll]
theorem State.startSweep_slots :
    (s.startSweep m).slots =
      if 1 < (m.number - s.sweep.b).toNat then
        Vector.ofFn fun i : Fin 32 => adjustedAccount m.number s.slots[i]
      else s.slots := by
  simp only [State.startSweep, State.setSweep_slots, State.adjustGap_slots, State.sealAll,
    State.setClock_slots, State.setQueue_slots, State.mapChannels_slots]
theorem State.startSweep_slot :
    (s.startSweep m).slots[i] =
      if 1 < (m.number - s.sweep.b).toNat ∧ s.slots[i].state.swept = true then
        { s.slots[i] with lastBoundary := m.number - 1 }
      else s.slots[i] := by
  simp only [State.startSweep_slots]
  by_cases hg : 1 < (m.number - s.sweep.b).toNat
  · simp only [hg, if_true, true_and, Fin.getElem_fin, Vector.getElem_ofFn, adjustedAccount]
  · simp only [hg, if_false, false_and]

/-- The visit to a slot passes it, or runs its boundary step. -/
theorem State.visitSlot_cases :
    (s.visitSlot i = s ∧
      (s.slots[i].state.swept = true → s.slots[i].lastBoundary = s.sweep.b)) ∨
    (s.visitSlot i = s.boundaryStep i ∧ s.slots[i].state.swept = true ∧
      s.slots[i].lastBoundary ≠ s.sweep.b) := by
  simp only [State.visitSlot]
  split
  · next h =>
    simp only [Bool.and_eq_true, decide_eq_true_eq] at h
    exact Or.inr ⟨rfl, h⟩
  · next h =>
    simp only [Bool.and_eq_true, decide_eq_true_eq, not_and, not_not] at h
    exact Or.inl ⟨rfl, h⟩

/-- The finish of a sweep leaves it idle, or takes the held marker at once. -/
theorem State.finishSweep_cases :
    ((s.sweep.heldMarker = false ∨ s.queue.marker = none) ∧
      s.finishSweep =
        s.setSweep { s.sweep with running := false, nextSlot := 32, heldMarker := false }) ∨
    (∃ q, s.sweep.heldMarker = true ∧ s.queue.marker = some q ∧
      s.finishSweep =
        (s.setSweep { s.sweep with
          running := false, nextSlot := 32, heldMarker := false }).startSweep q.marker) := by
  simp only [State.finishSweep]
  cases hh : s.sweep.heldMarker
  · exact Or.inl ⟨Or.inl rfl, rfl⟩
  · cases hq : s.queue.marker with
    | none => exact Or.inl ⟨Or.inr rfl, rfl⟩
    | some q => exact Or.inr ⟨q, rfl, rfl, rfl⟩

end

/-! ## The calendar -/

theorem Date.next_valid {d : Date} (h : d.valid = true) : d.next.valid = true := by
  simp only [Date.valid, Bool.and_eq_true, decide_eq_true_eq] at h
  obtain ⟨⟨⟨⟨hy, hm⟩, hM⟩, hd⟩, hD⟩ := h
  have hdim : ∀ y m, 1 ≤ daysInMonth y m := by
    intro y m; simp only [daysInMonth]; split
    · split <;> omega
    · split <;> omega
  simp only [Date.next]
  split
  · simp only [Date.valid, Bool.and_eq_true, decide_eq_true_eq]; omega
  · split
    · simp only [Date.valid, Bool.and_eq_true, decide_eq_true_eq]
      have := hdim d.year (d.month + 1); omega
    · split
      · simp only [Date.valid, Bool.and_eq_true, decide_eq_true_eq]
        have := hdim (d.year + 1) 1; omega
      · decide

theorem CalTime.next_valid {t : CalTime} (h : t.valid = true) : t.next.valid = true := by
  simp only [CalTime.valid, Bool.and_eq_true, decide_eq_true_eq] at h
  obtain ⟨⟨⟨hd, hh⟩, hm⟩, hs⟩ := h
  simp only [CalTime.next]
  repeat' split
  all_goals simp only [CalTime.valid, Bool.and_eq_true, decide_eq_true_eq]
  · exact ⟨⟨⟨hd, hh⟩, hm⟩, by omega⟩
  · exact ⟨⟨⟨hd, hh⟩, by omega⟩, by omega⟩
  · exact ⟨⟨⟨hd, by omega⟩, by omega⟩, by omega⟩
  · exact ⟨⟨⟨Date.next_valid hd, by omega⟩, by omega⟩, by omega⟩

/-! ## The clock -/

section
variable (s : State)

/-- What follows a new second: nothing, or one boundary at the clock's time. -/
theorem State.boundaryAtSecond_cases (wrapped : Bool) :
    s.boundaryAtSecond wrapped = s ∨
    s.boundaryAtSecond wrapped = s.makeBoundary s.clock.time .regular ∨
    s.boundaryAtSecond wrapped =
      (s.latch .clockIrregular 0).makeBoundary s.clock.time .irregular := by
  simp only [State.boundaryAtSecond]
  split
  · exact Or.inr (Or.inr rfl)
  · split
    · exact Or.inr (Or.inl rfl)
    · exact Or.inl rfl

@[simp] theorem State.advanceSecond_device : s.advanceSecond.device = s.device := by
  simp only [State.advanceSecond]
  split
  · rcases State.boundaryAtSecond_cases _ _ with h | h | h <;> rw [h] <;> simp
  · rfl
@[simp] theorem State.fallBack_device : s.fallBack.device = s.device := by
  simp only [State.fallBack]; split <;> simp
@[simp] theorem State.advanceSecond_tariff : s.advanceSecond.tariff = s.tariff := by
  simp only [State.advanceSecond]
  split
  · rcases State.boundaryAtSecond_cases _ _ with h | h | h <;> rw [h] <;> simp
  · rfl
@[simp] theorem State.fallBack_tariff : s.fallBack.tariff = s.tariff := by
  simp only [State.fallBack]; split <;> simp
@[simp] theorem State.advanceSecond_holdTime : s.advanceSecond.holdTime = s.holdTime := by
  simp only [State.advanceSecond]
  split
  · rcases State.boundaryAtSecond_cases _ _ with h | h | h <;> rw [h] <;> simp
  · rfl
@[simp] theorem State.fallBack_holdTime : s.fallBack.holdTime = s.holdTime := by
  simp only [State.fallBack]; split <;> simp
@[simp] theorem State.advanceSecond_channels : s.advanceSecond.channels = s.channels := by
  simp only [State.advanceSecond]
  split
  · rcases State.boundaryAtSecond_cases _ _ with h | h | h <;> rw [h] <;> simp
  · rfl
@[simp] theorem State.fallBack_channels : s.fallBack.channels = s.channels := by
  simp only [State.fallBack]; split <;> simp
@[simp] theorem State.advanceSecond_slots : s.advanceSecond.slots = s.slots := by
  simp only [State.advanceSecond]
  split
  · rcases State.boundaryAtSecond_cases _ _ with h | h | h <;> rw [h] <;> simp
  · rfl
@[simp] theorem State.fallBack_slots : s.fallBack.slots = s.slots := by
  simp only [State.fallBack]; split <;> simp
@[simp] theorem State.advanceSecond_directory : s.advanceSecond.directory = s.directory := by
  simp only [State.advanceSecond]
  split
  · rcases State.boundaryAtSecond_cases _ _ with h | h | h <;> rw [h] <;> simp
  · rfl
@[simp] theorem State.fallBack_directory : s.fallBack.directory = s.directory := by
  simp only [State.fallBack]; split <;> simp
@[simp] theorem State.advanceSecond_port : s.advanceSecond.port = s.port := by
  simp only [State.advanceSecond]
  split
  · rcases State.boundaryAtSecond_cases _ _ with h | h | h <;> rw [h] <;> simp
  · rfl
@[simp] theorem State.fallBack_port : s.fallBack.port = s.port := by
  simp only [State.fallBack]; split <;> simp
@[simp] theorem State.advanceSecond_pending : s.advanceSecond.pending = s.pending := by
  simp only [State.advanceSecond]
  split
  · rcases State.boundaryAtSecond_cases _ _ with h | h | h <;> rw [h] <;> simp
  · rfl
@[simp] theorem State.fallBack_pending : s.fallBack.pending = s.pending := by
  simp only [State.fallBack]; split <;> simp
@[simp] theorem State.advanceSecond_entries :
    s.advanceSecond.queue.entries = s.queue.entries := by
  simp only [State.advanceSecond]
  split
  · rcases State.boundaryAtSecond_cases _ _ with h | h | h <;> rw [h] <;>
      simp [State.makeBoundary_queue]
  · rfl
@[simp] theorem State.advanceSecond_time : s.advanceSecond.clock.time = s.clock.time.next := by
  simp only [State.advanceSecond]
  split
  · rcases State.boundaryAtSecond_cases _ _ with h | h | h <;> rw [h] <;> simp <;> rfl
  · rfl
@[simp] theorem State.advanceSecond_source : s.advanceSecond.clock.source = s.clock.source := by
  simp only [State.advanceSecond]
  split
  · rcases State.boundaryAtSecond_cases _ _ with h | h | h <;> rw [h] <;> simp <;> rfl
  · rfl
@[simp] theorem State.advanceSecond_monotonic :
    s.advanceSecond.clock.monotonic = s.clock.monotonic + 1 := by
  simp only [State.advanceSecond]
  split
  · rcases State.boundaryAtSecond_cases _ _ with h | h | h <;> rw [h] <;> simp <;> rfl
  · rfl
@[simp] theorem State.advanceSecond_gap :
    s.advanceSecond.clock.gapHalves = s.clock.gapHalves := by
  simp only [State.advanceSecond]
  split
  · rcases State.boundaryAtSecond_cases _ _ with h | h | h <;> rw [h] <;> simp <;> rfl
  · rfl

theorem State.advanceSecond_attention {s : State} (h : s.attention.sound = true) :
    s.advanceSecond.attention.sound = true := by
  simp only [State.advanceSecond]
  split
  · rcases State.boundaryAtSecond_cases (s.setClock s.clock.nextSecond.countSecond)
        (decide (s.clock.time = CalTime.last)) with hb | hb | hb <;> rw [hb]
    · exact h
    · exact State.makeBoundary_attention _ _ h
    · exact State.makeBoundary_attention _ _ (State.latch_sound (by decide) h)
  · exact h

/-- R27, R33: a second advance keeps queue, marker and sweep in agreement. -/
theorem State.advanceSecond_queueSound {s : State} (h : s.queueSound = true) :
    s.advanceSecond.queueSound = true := by
  simp only [State.advanceSecond]
  split
  · rcases State.boundaryAtSecond_cases (s.setClock s.clock.nextSecond.countSecond)
        (decide (s.clock.time = CalTime.last)) with hb | hb | hb <;> rw [hb]
    · exact h
    · exact State.makeBoundary_queueSound _ _ h
    · exact State.makeBoundary_queueSound _ _ h
  · exact h

end

/-! ## Power -/

section
variable (cause : ResetCause) (s : State)

@[simp] theorem State.dropWorking_device : s.dropWorking.device = s.device := rfl
@[simp] theorem State.dropWorking_tariff : s.dropWorking.tariff = s.tariff := rfl
@[simp] theorem State.dropWorking_holdTime : s.dropWorking.holdTime = s.holdTime := rfl
@[simp] theorem State.dropWorking_channels : s.dropWorking.channels = s.channels := rfl
@[simp] theorem State.dropWorking_slots : s.dropWorking.slots = s.slots := rfl
@[simp] theorem State.dropWorking_directory : s.dropWorking.directory = s.directory := rfl
@[simp] theorem State.dropWorking_pending : s.dropWorking.pending = s.pending := rfl
@[simp] theorem State.dropWorking_port : s.dropWorking.port = ⟨.idle, []⟩ := rfl
@[simp] theorem State.dropWorking_queue : s.dropWorking.queue = IntakeQueue.empty := rfl
@[simp] theorem State.dropWorking_links :
    s.dropWorking.links = Vector.replicate 4 (Link.afterReset s.holdTime) := rfl
@[simp] theorem State.dropWorking_attention :
    s.dropWorking.attention = Attention.afterStart := rfl
@[simp] theorem State.dropWorking_clock :
    s.dropWorking.clock = { s.clock with markerWaiting := false } := rfl
@[simp] theorem State.dropWorking_sweep :
    s.dropWorking.sweep = { s.sweep with heldMarker := false } := rfl

@[simp] theorem State.clearWorking_device : s.clearWorking.device = s.device := rfl
@[simp] theorem State.clearWorking_tariff : s.clearWorking.tariff = s.tariff := rfl
@[simp] theorem State.clearWorking_holdTime : s.clearWorking.holdTime = s.holdTime := rfl
@[simp] theorem State.clearWorking_channels : s.clearWorking.channels = s.channels := rfl
@[simp] theorem State.clearWorking_slots : s.clearWorking.slots = s.slots := rfl
@[simp] theorem State.clearWorking_directory : s.clearWorking.directory = s.directory := rfl
@[simp] theorem State.clearWorking_pending : s.clearWorking.pending = s.pending := rfl
@[simp] theorem State.clearWorking_port : s.clearWorking.port = ⟨.idle, []⟩ := rfl
@[simp] theorem State.clearWorking_queue : s.clearWorking.queue = IntakeQueue.empty := rfl
@[simp] theorem State.clearWorking_links :
    s.clearWorking.links = Vector.replicate 4 (Link.afterReset s.holdTime) := rfl
@[simp] theorem State.clearWorking_attention :
    s.clearWorking.attention = Attention.afterStart := rfl
@[simp] theorem State.clearWorking_clock : s.clearWorking.clock = s.clock.afterStart := rfl
@[simp] theorem State.clearWorking_sweep :
    s.clearWorking.sweep = { s.sweep with heldMarker := false } := rfl

/-- R185: no boundary is made at start-up, or one irregular boundary at the clock's time. -/
theorem State.outageBoundary_cases :
    (s.outageCalls = false ∧ s.outageBoundary = s) ∨
    (s.outageCalls = true ∧
      s.outageBoundary =
        (s.latch .clockIrregular 0).makeBoundary s.clock.time .irregular) := by
  simp only [State.outageBoundary]
  cases s.outageCalls <;> simp

@[simp] theorem State.startUp_tariff : (s.startUp cause).tariff = s.tariff := by
  simp only [State.startUp]
  rcases State.outageBoundary_cases _ with ⟨-, h⟩ | ⟨-, h⟩ <;> rw [h] <;> simp
@[simp] theorem State.startUp_holdTime : (s.startUp cause).holdTime = s.holdTime := by
  simp only [State.startUp]
  rcases State.outageBoundary_cases _ with ⟨-, h⟩ | ⟨-, h⟩ <;> rw [h] <;> simp
@[simp] theorem State.startUp_slots : (s.startUp cause).slots = s.slots := by
  simp only [State.startUp]
  rcases State.outageBoundary_cases _ with ⟨-, h⟩ | ⟨-, h⟩ <;> rw [h] <;> simp
@[simp] theorem State.startUp_directory : (s.startUp cause).directory = s.directory := by
  simp only [State.startUp]
  rcases State.outageBoundary_cases _ with ⟨-, h⟩ | ⟨-, h⟩ <;> rw [h] <;> simp
@[simp] theorem State.startUp_pending : (s.startUp cause).pending = s.pending := by
  simp only [State.startUp]
  rcases State.outageBoundary_cases _ with ⟨-, h⟩ | ⟨-, h⟩ <;> rw [h] <;> simp
@[simp] theorem State.startUp_device : (s.startUp cause).device = s.device.started cause := by
  simp only [State.startUp]
  rcases State.outageBoundary_cases _ with ⟨-, h⟩ | ⟨-, h⟩ <;> rw [h] <;> simp
@[simp] theorem State.startUp_port : (s.startUp cause).port = ⟨.idle, []⟩ := by
  simp only [State.startUp]
  rcases State.outageBoundary_cases _ with ⟨-, h⟩ | ⟨-, h⟩ <;> rw [h] <;> simp
@[simp] theorem State.startUp_mask : (s.startUp cause).attention.mask = 0xFFFF := by
  simp only [State.startUp]
  rcases State.outageBoundary_cases _ with ⟨-, h⟩ | ⟨-, h⟩ <;> rw [h] <;> simp <;> rfl
theorem State.startUp_channels :
    (s.startUp cause).channels =
      Vector.ofFn fun k : Fin 16 => channelAfterRestart s.channels[k] := by
  simp only [State.startUp]
  rcases State.outageBoundary_cases _ with ⟨-, h⟩ | ⟨-, h⟩ <;> rw [h] <;> simp
theorem State.startUp_channel (k : Fin 16) :
    (s.startUp cause).channels[k] = channelAfterRestart s.channels[k] := by
  simp only [State.startUp_channels, Fin.getElem_fin, Vector.getElem_ofFn]

theorem State.startUp_attention : (s.startUp cause).attention.sound = true := by
  have h0 : (s.clearWorking.setDevice (s.device.started cause)).attention.sound = true := rfl
  simp only [State.startUp]
  rcases State.outageBoundary_cases
      ((s.clearWorking.setDevice (s.device.started cause)).resetChannels
        channelAfterRestart) with ⟨-, h⟩ | ⟨-, h⟩ <;> rw [h]
  · exact State.resetChannels_attention _ h0
  · exact State.makeBoundary_attention _ _ (State.latch_sound (by decide)
      (State.resetChannels_attention _ h0))

end

/-! ## Requests (R173 to R176) -/

theorem State.request_of_accepts {c : Instr} {act : State → State × Response} {s : State}
    (h : s.accepts c = true) : s.request c act = answer (act s) := if_pos h

theorem State.request_of_not_accepts {c : Instr} {act : State → State × Response} {s : State}
    (h : s.accepts c = false) : s.request c act = s := if_neg (by simp [h])

/-- A request is no event, or its act with its answer put in the port. -/
theorem State.request_cases (c : Instr) (act : State → State × Response) (s : State) :
    s.request c act = s ∨ s.request c act = answer (act s) := by
  simp only [State.request]; split
  · exact Or.inr rfl
  · exact Or.inl rfl

theorem State.awake_of_accepts {c : Instr} {s : State} (h : s.accepts c = true) :
    s.awake = true := by
  simp only [State.accepts, Bool.and_eq_true] at h; exact h.1

/-! ## The directory (R12) -/

theorem directoryAscends_iff (l : List DirectoryEntry) :
    directoryAscends l = true ↔
      l.Pairwise fun a b => a.account.toNat < b.account.toNat := by
  induction l with
  | nil => simp [directoryAscends]
  | cons a l ih =>
    cases l with
    | nil => simp [directoryAscends]
    | cons b rest =>
      simp only [directoryAscends, Bool.and_eq_true, decide_eq_true_eq, ih, List.pairwise_cons,
        List.mem_cons, forall_eq_or_imp]
      constructor
      · rintro ⟨h, h1, h2⟩
        exact ⟨⟨h, fun x hx => h.trans (h1 x hx)⟩, h1, h2⟩
      · rintro ⟨⟨h, _⟩, h1, h2⟩
        exact ⟨h, h1, h2⟩

theorem mem_insertEntry (e x : DirectoryEntry) (l : List DirectoryEntry) :
    x ∈ insertEntry e l ↔ x = e ∨ x ∈ l := by
  induction l with
  | nil => simp [insertEntry]
  | cons f fs ih =>
    simp only [insertEntry]
    split
    · simp
    · simp only [List.mem_cons, ih]; tauto

theorem insertEntry_ascends {e : DirectoryEntry} {l : List DirectoryEntry}
    (hn : ∀ x ∈ l, x.account ≠ e.account) (h : directoryAscends l = true) :
    directoryAscends (insertEntry e l) = true := by
  rw [directoryAscends_iff] at h ⊢
  induction l with
  | nil => simp [insertEntry]
  | cons f fs ih =>
    rw [List.pairwise_cons] at h
    simp only [insertEntry]
    split
    · next hlt =>
      rw [List.pairwise_cons, List.pairwise_cons]
      refine ⟨?_, h⟩
      intro x hx
      rcases List.mem_cons.1 hx with rfl | hx
      · exact hlt
      · exact hlt.trans (h.1 x hx)
    · next hge =>
      rw [List.pairwise_cons]
      refine ⟨?_, ih (fun x hx => hn x (by simp [hx])) h.2⟩
      intro x hx
      rcases (mem_insertEntry e x fs).1 hx with rfl | hx
      · have := hn f (by simp)
        have : f.account.toNat ≠ x.account.toNat := fun hc => this (BitVec.eq_of_toNat_eq hc)
        omega
      · exact h.1 x hx

theorem removeEntry_ascends (i : Fin 32) {l : List DirectoryEntry}
    (h : directoryAscends l = true) : directoryAscends (removeEntry i l) = true := by
  rw [directoryAscends_iff] at h ⊢
  exact h.sublist List.filter_sublist

/-- An account number with no slot is in no entry. -/
theorem State.lookup_none {account : Word} {s : State} (h : s.lookup account = none) :
    ∀ x ∈ s.directory, x.account ≠ account := by
  simp only [State.lookup, Option.map_eq_none_iff, List.find?_eq_none] at h
  intro x hx hc
  exact h x hx (by simp [hc])

/-- The slot found for an account number is in an entry. -/
theorem State.lookup_some {account : Word} {i : Fin 32} {s : State}
    (h : s.lookup account = some i) : ⟨account, i⟩ ∈ s.directory := by
  simp only [State.lookup, Option.map_eq_some_iff] at h
  obtain ⟨e, he, rfl⟩ := h
  have hm := List.mem_of_find?_eq_some he
  have hp := List.find?_some he
  simp only [beq_iff_eq] at hp
  subst hp
  exact hm

/-- R12: with the directory sound, a slot an entry names is not VACANT. -/
theorem State.occupied_of_lookup {account : Word} {i : Fin 32} {s : State}
    (hd : s.directorySound = true) (h : s.lookup account = some i) :
    s.slots[i].state ≠ .vacant := by
  intro hv
  simp only [State.directorySound, Bool.and_eq_true, List.all_eq_true] at hd
  have hl := hd.2 i (by simp [slotNumbers])
  simp only [State.slotListed, hv, if_true, beq_iff_eq, List.countP_eq_zero] at hl
  exact hl _ (State.lookup_some h) (by simp)

end Sys2Proof.Machine
end

