-- ==== Sys2Proof/Laws/Tick.lean ====
section
/-!
SUPPORT. The half second that passes on an empty queue (R29, R30, R72, R73, R80; log 3): what the
presence timers and the hold timers leave, each said once over all channels and all links.
-/

namespace Sys2Proof.Machine

theorem step_empty {s : State} (h : s.pending = []) : step s = .next s.tick := by
  simp only [step, h]

/-- R188: while the part is not awake a second advance moves the clock alone. -/
theorem State.advanceSecond_held {s : State} (h : s.awake = false) :
    s.advanceSecond = s.setClock s.clock.nextSecond.countSecond := by
  simp only [State.advanceSecond, h, Bool.false_eq_true, if_false]

/-! ## Presence timers -/

/-- A channel's presence timer has run out in this half second. -/
def Channel.runsOut (c : Channel) : Prop := c.timerMode = .running ∧ c.timerHalves ≤ 1

/-- The channel record after its presence timer's half second. -/
def Channel.presenceTicked (c : Channel) : Channel :=
  if c.timerMode = .running then
    if c.timerHalves ≤ 1 then
      if c.state = .live then silenced { c with timerMode := .stopped, timerHalves := 0 }
      else { c with timerMode := .stopped, timerHalves := 0 }
    else { c with timerHalves := c.timerHalves - 1 }
  else c

/-- A presence timer reaches the channels and the pending set alone. -/
theorem State.tickPresence_frame (k : Fin 16) (s : State) :
    s.tickPresence k =
      (s.setChannels (s.tickPresence k).channels).setAttention (s.tickPresence k).attention := by
  simp only [State.tickPresence, State.expirePresence, State.silence]
  split
  · split
    · split <;> rfl
    · rfl
  · rfl

theorem State.tickPresence_channel (k j : Fin 16) (s : State) :
    (s.tickPresence k).channels[j] =
      if j = k then s.channels[k].presenceTicked else s.channels[j] := by
  simp only [State.tickPresence, Channel.presenceTicked]
  split
  · split
    · rw [State.expirePresence_channel]
    · rw [State.setChannel_channel]
  · split
    · next h => rw [h]
    · rfl

theorem State.mem_tickPresence (k : Fin 16) (s : State) (q : AttnPair) :
    q ∈ (s.tickPresence k).attention.pendingSet ↔
      (s.channels[k].runsOut ∧ s.channels[k].state = .live ∧ q = ⟨.channelSilent, k⟩) ∨
        q ∈ s.attention.pendingSet := by
  unfold State.tickPresence Channel.runsOut
  by_cases hm : s.channels[k].timerMode = .running
  · rw [if_pos hm]
    by_cases hh : s.channels[k].timerHalves ≤ 1
    · rw [if_pos hh, State.expirePresence, State.mem_silence]
      simp only [State.setChannel_attention, State.setChannel_channel, if_true, hm, hh, true_and]
      exact or_congr_left and_comm
    · rw [if_neg hh]
      simp only [State.setChannel_attention, hh, and_false, false_and, false_or]
  · rw [if_neg hm]
    simp only [hm, false_and, false_or]

@[simp] theorem State.tickPresence_mask (k : Fin 16) (s : State) :
    (s.tickPresence k).attention.mask = s.attention.mask := by
  simp only [State.tickPresence, State.expirePresence, State.silence]
  split
  · split
    · split <;> rfl
    · rfl
  · rfl

/-- Presence timers of some channels, one after another, reach the channels and the pending set
alone. -/
theorem State.presenceFold_frame (l : List (Fin 16)) (s : State) :
    l.foldl (fun t k => t.tickPresence k) s =
      (s.setChannels (l.foldl (fun t k => t.tickPresence k) s).channels).setAttention
        (l.foldl (fun t k => t.tickPresence k) s).attention := by
  induction l generalizing s with
  | nil => rfl
  | cons k l ih =>
    rw [List.foldl_cons, ih, State.tickPresence_frame]
    rfl

theorem State.presenceFold_channel : ∀ (l : List (Fin 16)) (s : State), l.Nodup → ∀ j : Fin 16,
    (l.foldl (fun t k => t.tickPresence k) s).channels[j] =
      if j ∈ l then s.channels[j].presenceTicked else s.channels[j] := by
  intro l
  induction l with
  | nil => intro s _ j; simp
  | cons k l ih =>
    intro s hn j
    rw [List.nodup_cons] at hn
    rw [List.foldl_cons, ih _ hn.2, State.tickPresence_channel]
    by_cases hj : j = k
    · subst hj; simp [hn.1]
    · simp [hj]

theorem State.mem_presenceFold : ∀ (l : List (Fin 16)) (s : State), l.Nodup → ∀ q : AttnPair,
    q ∈ (l.foldl (fun t k => t.tickPresence k) s).attention.pendingSet ↔
      (∃ k ∈ l, s.channels[k].runsOut ∧ s.channels[k].state = .live ∧
        q = ⟨.channelSilent, k⟩) ∨ q ∈ s.attention.pendingSet := by
  intro l
  induction l with
  | nil => intro s _ q; simp
  | cons k l ih =>
    intro s hn q
    rw [List.nodup_cons] at hn
    rw [List.foldl_cons, ih _ hn.2, State.mem_tickPresence]
    have hc : ∀ j ∈ l, (s.tickPresence k).channels[j] = s.channels[j] := by
      intro j hj
      rw [State.tickPresence_channel, if_neg]
      rintro rfl
      exact hn.1 hj
    constructor
    · rintro (⟨j, hj, h⟩ | h | h)
      · rw [hc j hj] at h
        exact Or.inl ⟨j, List.mem_cons_of_mem _ hj, h⟩
      · exact Or.inl ⟨k, List.mem_cons_self, h⟩
      · exact Or.inr h
    · rintro (⟨j, hj, h⟩ | h)
      · rcases List.mem_cons.1 hj with rfl | hj
        · exact Or.inr (Or.inl h)
        · rw [← hc j hj] at h
          exact Or.inl ⟨j, hj, h⟩
      · exact Or.inr (Or.inr h)

theorem State.presenceFold_holdTime (l : List (Fin 16)) (s : State) :
    (l.foldl (fun t k => t.tickPresence k) s).holdTime = s.holdTime := by
  rw [State.presenceFold_frame]; rfl

theorem State.presenceFold_queue (l : List (Fin 16)) (s : State) :
    (l.foldl (fun t k => t.tickPresence k) s).queue = s.queue := by
  rw [State.presenceFold_frame]; rfl

theorem State.presenceFold_mask (l : List (Fin 16)) (s : State) :
    (l.foldl (fun t k => t.tickPresence k) s).attention.mask = s.attention.mask := by
  induction l generalizing s with
  | nil => rfl
  | cons k l ih => rw [List.foldl_cons, ih, State.tickPresence_mask]

/-! ## Hold timers -/

/-- The link record after its hold timer's half second. -/
def Link.holdTicked (holdTime : Nat) (congested : Bool) (l : Link) : Link :=
  match l.holdTimer with
  | none => l
  | some halves =>
    if halves + 1 = l.lastHold then
      Link.refresh holdTime congested { l with holdTimer := some l.lastHold }
    else if 2 * l.lastHold ≤ halves + 1 then l.expire
    else { l with holdTimer := some (halves + 1) }

/-- A hold timer's half second is one change of its link. -/
theorem State.tickHold_changeLink (n : Fin 4) (s : State) :
    s.tickHold n =
      s.changeLink n (Link.holdTicked s.holdTime s.queue.congested s.links[n]) := by
  unfold State.tickHold Link.holdTicked State.refreshLink State.expireLink
  cases hl : s.links[n].holdTimer with
  | none =>
    simp only
    rw [State.changeLink_sameFlow rfl]
    simp [State.setLinks]
  | some halves =>
    simp only
    split
    · rfl
    · split <;> rfl

/-- The hold timers' half second is one change of every link. -/
theorem State.holdFold_eachLink (s : State) :
    linkNumbers.foldl (fun t n => t.tickHold n) s =
      s.eachLink (Link.holdTicked s.holdTime s.queue.congested) := by
  simp only [State.eachLink, linkNumbers, List.foldl_cons, List.foldl_nil,
    State.tickHold_changeLink, State.changeLink_holdTime, State.changeLink_queue]

/-- R72: a hold timer's half second keeps FLOWING a link that is FLOWING. -/
theorem Link.holdTicked_flowing (h : Nat) (c : Bool) {l : Link} (hf : l.flow = .flowing) :
    (l.holdTicked h c).flow = .flowing := by
  simp only [Link.holdTicked]
  split
  · exact hf
  · split
    · simp [Link.refresh, hf]
    · split
      · simp [Link.expire, hf]
      · exact hf

/-- Half a second on main power with the reset pin released: the clock, then every presence timer,
then every hold timer. -/
theorem State.tick_awake {s : State} (h : s.awake = true) :
    s.tick =
      (channelNumbers.foldl (fun t k => t.tickPresence k) s.tickClock).eachLink
        (Link.holdTicked s.tickClock.holdTime s.tickClock.queue.congested) := by
  simp only [State.awake, Bool.and_eq_true, Bool.not_eq_true'] at h
  simp only [State.tick, h.1, h.2, if_true, Bool.false_eq_true, if_false]
  rw [State.holdFold_eachLink, State.presenceFold_holdTime, State.presenceFold_queue]

end Sys2Proof.Machine
end

