-- ==== Sys2Proof/Tests/Slice0.lean ====
section
/-!
SUPPORT. Tests: the checks on commands, the CRC, requests and frames written out in bytes, one
step of each family on the values of the spec's worked examples, and for each obligation a state
and operands that meet its hypotheses (`test_hyp_…`).
-/

namespace Sys2Proof.Tests

open Sys2Proof.Machine

/-! ## Helpers -/

/-- The state a command leaves. -/
def after (c : Instr) (s : State) : State :=
  match exec c s with
  | .next t => t
  | .fault _ => s
  | .refused _ => s

/-- What the act of a request answered. -/
structure Answer where
  status : Status
  data : List Byte
  deriving DecidableEq

/-- The answer that a command leaves in the port, or none. -/
def said (c : Instr) (s : State) : Option Answer :=
  match (after c s).port.state with
  | .executing (.acted r) => some ⟨r.status, r.data⟩
  | _ => none

/-- A contract whose ratchet, peaks and window are those of the worked examples. -/
def image (account : Word) (terms : List FeedPlace) : ContractImage :=
  { account := account, schedule := 0, feedCount := u8 terms.length,
    place0 := terms.getD 0 FeedPlace.zero, place1 := terms.getD 1 FeedPlace.zero,
    place2 := terms.getD 2 FeedPlace.zero, place3 := terms.getD 3 FeedPlace.zero,
    place4 := terms.getD 4 FeedPlace.zero, place5 := terms.getD 5 FeedPlace.zero,
    windowLength := 3, contractDemand := 5100000, minimumBilling := 3000000, allowance := 500,
    peaksAveraged := 3, onePerDay := 1, ratchetPercent := 90, ratchetPeriods := 6 }

/-- Feed list +C0, −C5. -/
def netFeed : List FeedPlace := [⟨0, 1⟩, ⟨5, 2⟩]

def account (number : Word) (terms : List FeedPlace) (state : AccountState) : Account :=
  { Account.cleared with
    state := state, contract := image number terms,
    checkCode := checkCodeOf (image number terms), lastBoundary := 4210, period := 1 }

/-- One period at all times, demand-chargeable and leading-penalised. -/
def flat : Schedule :=
  ⟨Vector.replicate 4 ⟨true, true⟩, [⟨0, 1⟩], [⟨0, 1⟩], [⟨0, 1⟩], [⟨0, 1⟩]⟩

/-- Schedule 2 of section 3.5. -/
def peaky : Schedule :=
  { periods := Vector.ofFn fun k : Fin 4 => ⟨k == 1 || k == 2, k == 2 || k == 3⟩
    weekday := [⟨0, 0⟩, ⟨420, 1⟩, ⟨1020, 2⟩, ⟨1200, 1⟩, ⟨1320, 0⟩]
    saturday := [⟨0, 0⟩, ⟨480, 1⟩, ⟨780, 0⟩]
    sunday := [⟨0, 3⟩]
    holiday := [⟨0, 3⟩] }

/-- The LIVE channel of section 5.10 after its Event 1. -/
def meter : Channel :=
  { Channel.cleared with
    state := .live, identity := some 0x112233445566, ratedPower := some 4000000,
    lastTotals := some ⟨1000000, 500000, 20000⟩, lastSequence := some 40,
    lastSecond := some 1000, timerMode := .running, timerHalves := 10,
    openWindow := ⟨150000, 90000, 2000⟩, reference := ⟨300000, 180000, 0⟩ }

/-- A part in service: two schedules, three holidays, six LIVE channels, b = 4210, and a trusted
clock at 10:14:59 of section 2.8 with L = 300 s and the source PULSE. -/
def base : State :=
  { State.reset with
    tariff :=
      { schedules := ((Vector.replicate 8 none).set 0 (some flat)).set 2 (some peaky)
        holidays := [⟨31, 1, 1⟩, ⟨31, 5, 1⟩, ⟨31, 12, 25⟩] }
    channels := Vector.ofFn fun k : Fin 16 =>
      if k = 0 ∨ k = 1 ∨ k = 2 ∨ k = 4 ∨ k = 5 ∨ k = 6 then meter else Channel.cleared
    sweep := ⟨false, 4210, ⟨⟨31, 3, 14⟩, 10, 10, 0⟩, .regular, 32, false⟩
    clock :=
      { Clock.afterLoss with
        time := ⟨⟨31, 3, 14⟩, 10, 14, 59⟩, dayOfWeek := .friday, source := .pulse, trust := true,
        subinterval := 300, boundaryNumber := 4210,
        lastBoundary := ⟨⟨31, 3, 14⟩, 10, 10, 0⟩, monotonic := 1550 }
    attention := ⟨[], 0xFFFF⟩ }

/-- An account in a slot, with its directory entry and its terms counted. -/
def holding (i : Fin 32) (a : Account) (s : State) : State :=
  ((s.setSlot i a).setDirectory (insertEntry ⟨a.contract.account, i⟩ s.directory)).addTerms
    a.countedTerms

/-- Slot 2 holds account 8800 with feed list +C0, −C5. -/
def withAccount (state : AccountState) : State := holding 2 (account 8800 netFeed state) base

/-- A sweep runs for 4211, one above, and comes to a slot. -/
def sweeping (next : Nat) (s : State) : State :=
  s.setSweep ⟨true, 4211, ⟨⟨31, 6, 2⟩, 14, 5, 0⟩, .regular, next, false⟩

def inPort (p : PortState) (s : State) : State := s.setPort ⟨p, []⟩

def switchedOff (valid : Bool) : State :=
  base.setDevice { base.device with mainPower := false, retentionValid := valid }

def pinHeld : State := base.setDevice { base.device with resetHeld := true }

/-- A frame of the meter at sub-address 2 of link 1, the one section 5.10 takes at 10:11:40. -/
def frame : FrameEntry :=
  { link := 1, subAddress := 2, identity := 0x112233445566, sequence := 41,
    totals := ⟨1500000, 750000, 23000⟩, sourceStatus := 0 }

/-- The characters of a frame after its first, each with a good stop element but for one value. -/
def charsAfterFirst (badOne : Option Byte) : List LineChar :=
  (frame.bytes.drop 1).map fun b => ⟨b, badOne != some b⟩

/-- The whole frame arrives on a link that waits. -/
def wholeFrame : Instr := .frameReceived 1 ⟨0xA1, true⟩ (charsAfterFirst none)

/-- So many frames in the queue, and the marker behind so many of them. -/
def queued (n : Nat) (position : Option Nat) (s : State) : State :=
  (s.setQueue
    { entries := List.replicate n frame,
      marker := position.map fun p => ⟨⟨4211, ⟨⟨31, 3, 14⟩, 10, 15, 0⟩, .regular⟩, p⟩,
      congested := false }).setClock { s.clock with markerWaiting := position.isSome }

def withLink (n : Fin 4) (l : Link) (s : State) : State := s.setLinks (s.links.set n l)

def plainLink : Link := Link.afterReset 8

/-! ## The checks on a command -/

theorem test_wf_refuses :
    (Instr.voidTransaction (some 0xA7) 0).wf = false ∧
    (Instr.voidTransaction (some 0x7A) 3).wf = false ∧
    (Instr.loadSchedule 0 (List.replicate 23 0)).wf = false ∧
    (Instr.loadSchedule 0 (List.replicate 109 0)).wf = false ∧
    (Instr.loadHolidays 24 (List.replicate 73 0)).wf = false ∧
    (Instr.frameReceived 0 ⟨0, true⟩ (List.replicate 25 ⟨0, true⟩)).wf = false := by decide

theorem test_wf_accepts :
    (Instr.voidTransaction none 0).wf = true ∧ (Instr.setChannelPolicy 99 9 0 0).wf = true := by
  decide

/-! ## Bytes -/

theorem test_crc_check_value :
    crc16 [0x31, 0x32, 0x33, 0x34, 0x35, 0x36, 0x37, 0x38, 0x39] = 0x29B1 := by
  decide +kernel

/-- READ REGISTERS 8800, period 1 (10.5, command code and operand tables). -/
theorem test_request_registers :
    judgeRequest [0x33, 0x05, 0x00, 0x00, 0x22, 0x60, 0x01, 0xC0, 0x6D] =
      .dispatched (.readRegisters 8800 1) := by decide +kernel

theorem test_request_clock :
    judgeRequest [0x08, 0x07, 31, 3, 14, 10, 24, 10, 0, 0x27, 0xED] =
      .dispatched (.setClock ⟨31, 3, 14, 10, 24, 10⟩ 0) := by decide +kernel

theorem test_request_schedule :
    judgeRequest [0x11, 0x01, 0x02, 0xAB, 0xBC] = .dispatched (.readSchedule 2) := by
  decide +kernel

theorem test_request_hold_time :
    judgeRequest [0x18, 0x01, 0x08, 0x94, 0x67] = .dispatched (.setHoldTime 8) := by
  decide +kernel

theorem test_request_meter :
    judgeRequest [0x20, 0x0B, 0x06, 0x11, 0x22, 0x33, 0x44, 0x55, 0x66, 0x00, 0x3D, 0x09, 0x00,
        0x38, 0xCC] =
      .dispatched (.registerMeter 6 0x112233445566 4000000) := by decide +kernel

theorem test_request_commit :
    judgeRequest [0x3B, 0x05, 0x00, 0x00, 0x22, 0x60, 0x01, 0x53, 0xC0] =
      .dispatched (.commitAmendment 8800 1) := by decide +kernel

theorem test_request_dismiss :
    judgeRequest [0x41, 0x02, 0x08, 0x00, 0x7B, 0x21] = .dispatched (.dismiss 0x0800 none) ∧
    judgeRequest [0x41, 0x03, 0x08, 0x00, 0x05, 0xC8, 0xED] =
      .dispatched (.dismiss 0x0800 (some 5)) := by decide +kernel

theorem test_request_engine_clear :
    judgeRequest [0x02, 0x00, 0x7B, 0x6D] = .dispatched .engineClear := by decide +kernel

/-- A TOTALS frame written out (10.5, link frames). -/
theorem test_totals_frame :
    checkFrame 1 [0xA1, 0x02, 0x11, 0x22, 0x33, 0x44, 0x55, 0x66, 0x29, 0x00, 0x16, 0xE3, 0x60,
        0x00, 0x0B, 0x71, 0xB0, 0x00, 0x00, 0x59, 0xD8, 0x00, 0x00, 0x4F, 0x36] false =
      some frame := by decide +kernel

/-- HOLD of 8 s, RELEASE, and the TIME frame of section 2.8, Event 2, written out. -/
theorem test_control_frames :
    (Transmitter.sendingHold 8).bytes = [0xB1, 0x08, 0xB1, 0x3B] ∧
    Transmitter.sendingRelease.bytes = [0xB2, 0x66, 0x69] ∧
    (Transmitter.sendingTime ⟨⟨⟨31, 3, 14⟩, 10, 15, 0⟩, 0xA5⟩).bytes =
      [0xB3, 31, 3, 14, 10, 15, 0, 0xA5, 0x5F, 0x19] := by decide +kernel

/-! ## Request port (section 10.6) -/

/-- Port states for the statements on requests. -/
structure PortCase where
  idle : State
  busy : State
  acted : State
  ready : State

/-- `base` with its port in each state. -/
def portCase : PortCase :=
  { idle := base
    busy := inPort (.executing (.dispatched .readClock)) base
    acted := inPort (.executing (.acted ⟨.ok, []⟩)) base
    ready := inPort (.responseReady ⟨.ok, [7]⟩) base }

/-- READ CLOCK as a message. -/
def readClockMessage : List Byte := [0x09, 0x00, 0xA7, 0x97]

theorem test_send_taken :
    (after (.sendTransaction readClockMessage) base).port =
      ⟨.executing (.dispatched .readClock), [0xE0, 0, 0, 0, 0]⟩ := by decide +kernel

theorem test_send_busy :
    (after (.sendTransaction readClockMessage)
        (inPort (.executing (.dispatched .readLinks)) base)).port =
      ⟨.executing (.dispatched .readLinks), [0x01, 0, 0, 0, 0]⟩ := by decide +kernel

/-- The response of section 10.6. -/
def longResponse : Response := ⟨.ok, List.replicate 343 0⟩

theorem test_segments :
    longResponse.segments.map List.length = [256, 95] ∧
    longResponse.segments.map List.head? = [some 0x80, some 0x00] := by decide +kernel

theorem test_read_stopped :
    (after (.readTransaction 100) (inPort (.responseReady longResponse) base)).port.state =
      .responseReady longResponse := by decide +kernel

theorem test_read_whole :
    (after (.readTransaction 351) (inPort (.responseReady longResponse) base)).port.state =
      .idle := by decide +kernel

theorem test_void :
    (after (.voidTransaction (some 0x9F) 2) base).port = ⟨.idle, [0xE0, 0, 0]⟩ := by
  decide +kernel

theorem test_execution_ends :
    (after .executionEnds (inPort (.executing (.acted ⟨.ok, []⟩)) base)).ready = true := by
  decide +kernel

/-- A request that is not the one dispatched makes no event (log 2). -/
theorem test_another_request_not_run :
    after .readClock (inPort (.executing (.dispatched .readLinks)) base) =
      inPort (.executing (.dispatched .readLinks)) base := by decide +kernel

theorem test_hyp_SendIsTakenUnlessExecuting :
    (portCase.idle.awake = true ∧ portCase.idle.port.state = .idle) ∧
    (portCase.ready.awake = true ∧ portCase.ready.port.state = .responseReady ⟨.ok, [7]⟩) ∧
    (portCase.busy.awake = true ∧
      portCase.busy.port.state = .executing (.dispatched .readClock)) := by decide +kernel

theorem test_hyp_RequestIsJudged :
    ([1, 0, 0] : List Byte).length < 4 ∧ 256 < (List.replicate 257 (0 : Byte)).length ∧
    (0xFF : Byte).toNat + 4 ≠ [(0 : Byte), 0].length + 2 ∧
    (List.replicate 252 (0 : Byte)).length ≤ 252 ∧
    (0 : Half) ≠ crc16 (0x09 :: u8 0 :: []) ∧
    (((0x10 : Byte), 25, 109) ∈ operandLengths ∧ (List.replicate 24 (0 : Byte)).length < 25 ∧
      109 < (List.replicate 110 (0 : Byte)).length ∧
      25 ≤ (List.replicate 109 (0 : Byte)).length ∧
      (List.replicate 109 (0 : Byte)).length ≤ 109) ∧
    (0x03 : Byte) ∉ operandLengths.map Prod.fst := by decide +kernel

theorem test_hyp_SpelledRequestIsDispatched :
    (Instr.loadSchedule 0 (List.replicate 108 0)).wf = true ∧
    requestMessage .readClock = some readClockMessage := by decide +kernel

/-- The response of `portCase.ready` is 5 bytes. -/
theorem test_hyp_ReadShiftsOutTheResponse :
    (portCase.ready.port.state = .responseReady ⟨.ok, [7]⟩ ∧
      (⟨.ok, [7]⟩ : Response).bytes.length ≤ 5 ∧ 4 < (⟨.ok, [7]⟩ : Response).bytes.length) ∧
    portCase.ready.awake = true ∧ portCase.idle.port.state = .idle ∧
    portCase.busy.port.state = .executing (.dispatched .readClock) := by decide +kernel

theorem test_hyp_ExecutionEndsWithTheResponse :
    (portCase.acted.awake = true ∧ portCase.acted.port.state = .executing (.acted ⟨.ok, []⟩)) ∧
    (⟨.ok, List.replicate 252 0⟩ : Response).data.length ≤ 252 ∧
    252 < (⟨.ok, List.replicate 253 0⟩ : Response).data.length ∧
    (⟨.ok, List.replicate 504 0⟩ : Response).data.length ≤ 504 := by decide +kernel

/-! ## Power and identity -/

/-- What a reset or a loss of power shows. -/
structure PowerFace where
  mainPower : Bool
  resetHeld : Bool
  retentionValid : Bool
  cause : ResetCause
  deriving DecidableEq

def powerFace (s : State) : PowerFace :=
  ⟨s.device.mainPower, s.device.resetHeld, s.device.retentionValid, s.device.resetCause⟩

theorem test_identity :
    said .readIdentity State.reset =
      some ⟨.ok, [0x0E, 0x7A, 0x0D, 0x32, 0x01, 0, 1, 8]⟩ := by decide +kernel

theorem test_power_on_lost :
    after .powerOn (switchedOff false) = State.reset := by decide +kernel

/-- Section 11.6: the outage boundary behind a sweep that stood still. -/
theorem test_power_on_kept :
    let t := after .powerOn (sweeping 12 (switchedOff true))
    t.clock.boundaryNumber = 4211 ∧ t.queue.marker.isSome = true ∧
    t.sweep.heldMarker = true ∧ t.sweep.nextSlot = 12 ∧
    ⟨.sweepLate, 0⟩ ∈ t.attention.pendingSet ∧ ⟨.clockIrregular, 0⟩ ∈ t.attention.pendingSet ∧
    ⟨.channelSilent, 6⟩ ∈ t.attention.pendingSet ∧ t.channels[6].state = .silent ∧
    t.device.retentionLost = false := by
  refine ⟨?_, ?_, ?_, ?_, ?_, ?_, ?_, ?_, ?_⟩ <;> decide +kernel

theorem test_main_power_loss :
    (after .mainPowerLoss (queued 3 none base)).queue = IntakeQueue.empty ∧
    (after .mainPowerLoss (queued 3 none base)).awake = false := by decide +kernel

theorem test_backup_supply :
    powerFace (after .backupSupplyLoss base) = ⟨true, false, true, .powerOn⟩ ∧
    powerFace (after .backupSupplyLoss (switchedOff true)) = ⟨false, false, false, .powerOn⟩ := by
  decide +kernel

theorem test_reset_pin :
    powerFace (after .resetPinAsserted base) = ⟨true, true, true, .powerOn⟩ ∧
    powerFace (after .resetPinReleased pinHeld) = ⟨true, false, true, .pin⟩ ∧
    (after .resetPinAsserted (base.setClock { base.clock with phaseHalves := 1 })).clock.phaseHalves =
      1 := by decide +kernel

/-- Section 1.10: a disturbance of the stored contract demand is found at the next command. -/
theorem test_disturbance :
    let s := after (.storageDisturbance 2 { image 8800 netFeed with contractDemand := 7 }
      (checkCodeOf (image 8800 netFeed))) (withAccount .active)
    said (.suspendAccount 8800) s = some ⟨.recordFault, []⟩ ∧
    (after (.suspendAccount 8800) s).slots[2].state = .faulted ∧
    (after (.suspendAccount 8800) s).attention.pendingSet = [⟨.recordFault, 2⟩] := by
  refine ⟨?_, ?_, ?_⟩ <;> decide +kernel

theorem test_engine_clear :
    said .engineClear (queued 3 (some 3) base) = some ⟨.ok, [3, 1]⟩ ∧
    said .engineClear (sweeping 5 base) = some ⟨.sweepActive, []⟩ := by decide +kernel

/-- The clock at a time, with a source. -/
def atTime (h m sec : Nat) (source : SecondSource) : State :=
  base.setClock { base.clock with time := ⟨⟨31, 3, 14⟩, h, m, sec⟩, source := source }

theorem test_hyp_PowerOnWithRetentionLost :
    (switchedOff false).device.mainPower = false ∧
    (switchedOff false).device.retentionValid = false := by decide +kernel

/-- A boundary called for at start-up, and none. -/
theorem test_hyp_StartUpKeepsRetainedState :
    ((switchedOff true).device.mainPower = false ∧
      (switchedOff true).device.retentionValid = true) ∧
    (pinHeld.device.mainPower = true ∧ pinHeld.device.resetHeld = true) ∧
    (base.clock.boundaryNumber = base.sweep.b ∧
      sameSubinterval base.clock.subinterval base.clock.lastBoundary base.clock.time = true) ∧
    sameSubinterval 300 base.clock.lastBoundary (atTime 10 15 0 .pulse).clock.time = false := by
  decide +kernel

theorem test_hyp_LossOfPowerKeepsRetainedState :
    (base.device.mainPower = true ∧ base.device.resetHeld = false) ∧
    (switchedOff true).device.mainPower = false := by decide +kernel

theorem test_hyp_DisturbanceChangesTheStoredContract :
    (withAccount .active).slots[(2 : Fin 32)].state ≠ .vacant ∧
    (withAccount .active).slots[(31 : Fin 32)].state = .vacant := by decide +kernel

theorem test_hyp_EngineClearRestartsTheIntakeSide :
    (base.accepts .engineClear = true ∧ base.sweep.running = false) ∧
    ((sweeping 31 base).accepts .engineClear = true ∧ (sweeping 31 base).sweep.running = true) :=
  by decide +kernel

/-! ## Billing clock (section 2.8) -/

/-- What the clock shows. -/
structure ClockFace where
  time : CalTime
  source : SecondSource
  number : Word
  monotonic : Word
  deriving DecidableEq

def clockFace (s : State) : ClockFace :=
  ⟨s.clock.time, s.clock.source, s.clock.boundaryNumber, s.clock.monotonic⟩

theorem test_regular_boundary :
    let t := after .secondPulseEdge (queued 12 none base)
    clockFace t = ⟨⟨⟨31, 3, 14⟩, 10, 15, 0⟩, .pulse, 4211, 1551⟩ ∧ t.clock.markerWaiting = true ∧
    t.queue.marker = some ⟨⟨4211, ⟨⟨31, 3, 14⟩, 10, 15, 0⟩, .regular⟩, 12⟩ ∧
    t.links[3].transmitter = .sendingTime ⟨⟨⟨31, 3, 14⟩, 10, 15, 0⟩, 0x73⟩ := by
  decide +kernel

theorem test_merged_boundary :
    let t := after .secondPulseEdge (queued 12 (some 12) base)
    t.queue.marker = some ⟨⟨4211, ⟨⟨31, 3, 14⟩, 10, 15, 0⟩, .irregular⟩, 12⟩ ∧
    t.attention.pendingSet = [⟨.clockIrregular, 0⟩] := by decide +kernel

theorem test_fallback :
    clockFace (after .pulseLossFallback (atTime 10 21 7 .pulse)) =
      ⟨⟨⟨31, 3, 14⟩, 10, 21, 10⟩, .internal, 4210, 1553⟩ := by decide +kernel

theorem test_set_clock_same :
    said (.setClock ⟨31, 3, 14, 10, 24, 10⟩ 0) (atTime 10 21 40 .internal) =
      some ⟨.ok, [0, 0, 0x10, 0x72, 1, 0]⟩ := by decide +kernel

theorem test_set_clock_back :
    said (.setClock ⟨31, 3, 14, 10, 18, 30⟩ 1) (atTime 10 24 12 .internal) =
      some ⟨.ok, [0, 0, 0x10, 0x73, 1, 1]⟩ := by decide +kernel

theorem test_read_clock :
    said .readClock base =
      some ⟨.ok, [31, 3, 14, 10, 14, 59, 5, 1, 1, 0x01, 0x2C, 0, 0, 0x10, 0x72,
        31, 3, 14, 10, 10, 0, 0]⟩ := by decide +kernel

theorem test_set_subinterval :
    said (.setSubinterval 900) base = some ⟨.ok, []⟩ ∧
    said (.setSubinterval 901) base = some ⟨.badOperand, []⟩ ∧
    said (.setSubinterval 900) (withAccount .faulted) = some ⟨.inUse, []⟩ ∧
    said (.setSubinterval 900)
        (base.loadSchedule 7 { flat with sunday := [⟨0, 1⟩, ⟨610, 1⟩] }) =
      some ⟨.badSchedule, []⟩ := by
  refine ⟨?_, ?_, ?_, ?_⟩ <;> decide +kernel

theorem test_internal_second :
    clockFace (after .internalSecond (atTime 10 21 10 .internal)) =
      ⟨⟨⟨31, 3, 14⟩, 10, 21, 11⟩, .internal, 4210, 1551⟩ := by decide +kernel

/-- 2031-03-14 is a Friday, and the last second of 2099 wraps with an irregular boundary. -/
theorem test_calendar_wrap :
    let s := base.setClock { base.clock with time := CalTime.last, dayOfWeek := .thursday }
    let t := after .secondPulseEdge s
    t.clock.time = CalTime.origin ∧ t.clock.dayOfWeek = .saturday ∧ t.clock.trust = false ∧
    t.clock.boundaryNumber = 4211 ∧ (⟨31, 3, 14⟩ : Date).dayOfWeek = .friday ∧
    CalTime.last.date.dayOfWeek = .thursday := by decide +kernel

theorem test_outage_second :
    clockFace (after .outageSecondAdvance (switchedOff true)) =
      ⟨⟨⟨31, 3, 14⟩, 10, 15, 0⟩, .pulse, 4210, 1550⟩ := by decide +kernel

theorem test_hyp_SetClockFollowsTheSubinterval :
    base.accepts (.setClock ⟨99, 12, 31, 23, 59, 59⟩ 2) = true ∧
    (calTimeOf ⟨100, 1, 1, 0, 0, 0⟩).valid = false ∧ sourceOf 2 = none ∧
    (calTimeOf ⟨99, 12, 31, 23, 59, 59⟩).valid = true ∧ sourceOf 1 = some .pulse ∧
    sameSubinterval base.clock.subinterval base.clock.time
      (calTimeOf ⟨31, 3, 14, 10, 10, 0⟩) = true ∧
    sameSubinterval base.clock.subinterval base.clock.time
      (calTimeOf ⟨31, 3, 14, 10, 15, 0⟩) = false := by decide +kernel

theorem test_hyp_SetSubintervalWithNoAccountOpen :
    base.accepts (.setSubinterval 1800) = true ∧
    (withAccount .retired).accepts (.setSubinterval 60) = true ∧
    (withAccount .opening).slots[(2 : Fin 32)].state.counted = true := by decide +kernel

theorem test_hyp_SecondAdvances :
    (base.awake = true ∧ base.clock.source = .pulse) ∧
    ((atTime 10 14 59 .internal).awake = true ∧
      (atTime 10 14 59 .internal).clock.source = .internal) ∧
    ((switchedOff true).device.mainPower = false ∧
      (switchedOff true).device.retentionValid = true) ∧
    (pinHeld.device.mainPower = true ∧ pinHeld.device.resetHeld = true ∧
      pinHeld.clock.source = .pulse) ∧
    (let s := pinHeld.setClock (atTime 10 14 59 .internal).clock;
      s.device.mainPower = true ∧ s.device.resetHeld = true ∧ s.clock.source = .internal) := by
  decide +kernel

/-- R188: on the second of 10:15:00 under a held reset pin the clock moves and makes no boundary. -/
theorem test_second_under_reset :
    let s := pinHeld.setClock (atTime 10 14 59 .internal).clock
    after .internalSecond s =
      s.setClock { s.clock with
        time := ⟨⟨31, 3, 14⟩, 10, 15, 0⟩, monotonic := s.clock.monotonic + 1 } := by
  decide +kernel

/-- The boundary of 10:15:00 falls on the second of the three. -/
theorem test_hyp_PulseLossFallsBack :
    (base.awake = true ∧ base.clock.source = .pulse) ∧
    (let s := atTime 10 14 58 .pulse;
      s.awake = true ∧ s.clock.source = .pulse ∧
        s.clock.time.next.next.timeOfDay % s.clock.subinterval = 0) ∧
    (pinHeld.clock.source = .pulse ∧ pinHeld.device.mainPower = true ∧
      pinHeld.device.resetHeld = true) := by
  decide +kernel

theorem test_hyp_BoundaryPlacesOrMergesTheMarker :
    (base.clock.markerWaiting = false ∧ base.links[(0 : Fin 4)].transmitter = .idle ∧
      base.links[(0 : Fin 4)].waitingControl = none) ∧
    ((queued 64 (some 64) base).clock.markerWaiting = true ∧
      ((queued 64 (some 64) base).queue.marker.map QueuedMarker.position) = some 64) ∧
    ((sweeping 31 base).clock.markerWaiting = false ∧ (sweeping 31 base).queue.entries = [] ∧
      (sweeping 31 base).sweep.running = true) ∧
    (withLink 3 { plainLink with transmitter := .sendingRelease } base).links[
      (3 : Fin 4)].transmitter ≠ .idle := by decide +kernel

/-! ## Tariff table (section 3.5) -/

/-- A place in a schedule that a refusal names. -/
structure SchedulePlace where
  part : Byte
  index : Byte
  position : Byte
  deriving DecidableEq

/-- A schedule as LOAD SCHEDULE carries it after its slot. -/
def flatBody : List Byte :=
  [1, 1, 1, 1, 1, 1, 1, 1] ++ [1, 0, 0, 1] ++ [1, 0, 0, 1] ++ [1, 0, 0, 1] ++ [1, 0, 0, 1]

theorem test_load_schedule :
    said (.loadSchedule 0 flatBody) base = some ⟨.ok, [1]⟩ ∧
    (after (.loadSchedule 5 flatBody) base).tariff.schedules[5] = some flat ∧
    said (.loadSchedule 0 flatBody) (sweeping 3 base) = some ⟨.sweepActive, []⟩ := by
  refine ⟨?_, ?_, ?_⟩ <;> decide +kernel

/-- Section 3.5, Event 9: SATURDAY, point 2, minute 610 under L = 900 s. -/
def saturdayBody : List Byte :=
  [1, 1, 1, 1, 1, 1, 1, 1] ++ [1, 0, 0, 1] ++ [3, 0, 0, 0, 2, 98, 1, 3, 12, 0] ++ [1, 0, 0, 1] ++
    [1, 0, 0, 1]

/-- The place named where checks fail under a length. -/
def placeOf (length : Nat) (slot : Byte) (body : List Byte) : Option SchedulePlace :=
  match checkSchedule length slot body with
  | .badSchedule f => some ⟨f.part, f.index, f.position⟩
  | _ => none

theorem test_bad_schedule : placeOf 900 5 saturdayBody = some ⟨1, 1, 2⟩ := by decide +kernel

theorem test_read_schedule :
    said (.readSchedule 0) base = some ⟨.ok, 1 :: flatBody⟩ ∧
    said (.readSchedule 1) base = some ⟨.ok, [0]⟩ ∧
    said (.readSchedule 8) base = some ⟨.badOperand, []⟩ := by decide +kernel

theorem test_holidays :
    said .readHolidays base = some ⟨.ok, [3, 31, 1, 1, 31, 5, 1, 31, 12, 25]⟩ ∧
    said (.loadHolidays 1 [32, 2, 29]) base = some ⟨.ok, []⟩ ∧
    said (.loadHolidays 1 [31, 2, 29]) base = some ⟨.badOperand, []⟩ := by decide +kernel

theorem test_period_lookup :
    base.lookupPeriod 2 ⟨⟨31, 4, 30⟩, 16, 45, 0⟩ = 1 ∧
    base.lookupPeriod 2 ⟨⟨31, 4, 30⟩, 17, 0, 0⟩ = 2 ∧
    base.lookupPeriod 2 ⟨⟨31, 5, 1⟩, 17, 0, 0⟩ = 3 ∧
    base.lookupPeriod 2 ⟨⟨31, 5, 3⟩, 13, 5, 20⟩ = 0 := by decide +kernel

/-- Attribute bytes and day programs as LOAD SCHEDULE carries them, each failing at its last place. -/
structure CarriedCase where
  ones : Vector Byte 8
  badAttribute : Vector Byte 8
  flats : Vector (List (Half × Byte)) 4
  noPoint : Vector (List (Half × Byte)) 4
  ninePoints : Vector (List (Half × Byte)) 4
  badPoint : Vector (List (Half × Byte)) 4

def carriedCase : CarriedCase :=
  { ones := Vector.replicate 8 1
    badAttribute := (Vector.replicate 8 1).set 7 2
    flats := Vector.replicate 4 [(0, 1)]
    noPoint := (Vector.replicate 4 [(0, 1)]).set 3 []
    ninePoints := (Vector.replicate 4 [(0, 1)]).set 3 (List.replicate 9 (0, 1))
    badPoint := (Vector.replicate 4 [(0, 1)]).set 3 [(0, 1), (7, 1)] }

/-- LOAD SCHEDULE: the slot, the form, the attributes, the counts and the points, and all that
passes while the sweep runs and while it does not. -/
theorem test_hyp_LoadsReplaceTheTariffWhole_schedule :
    (base.accepts (.loadSchedule 8 flatBody) = true ∧ 7 < (8 : Byte).toNat) ∧
    (base.accepts (.loadSchedule 0 []) = true ∧
      ∀ attributes programs, [] ≠ carriedSchedule attributes programs) ∧
    (flatBody = carriedSchedule carriedCase.ones carriedCase.flats ∧
      (∀ d : Fin 4, carriedCase.flats[d].length ≤ 255) ∧
      (∀ i : Fin 8, carriedCase.ones[i] = 0 ∨ carriedCase.ones[i] = 1) ∧
      (∀ d : Fin 4, programPasses base.clock.subinterval carriedCase.flats[d]) ∧
      base.sweep.running = false ∧ (sweeping 0 base).sweep.running = true ∧
      (sweeping 0 base).accepts (.loadSchedule 7 flatBody) = true) ∧
    ((∀ j : Fin 8, j < 7 → carriedCase.badAttribute[j] = 0 ∨ carriedCase.badAttribute[j] = 1) ∧
      ¬(carriedCase.badAttribute[(7 : Fin 8)] = 0 ∨ carriedCase.badAttribute[(7 : Fin 8)] = 1)) ∧
    ((∀ c : Fin 4, c < 3 → programPasses base.clock.subinterval carriedCase.noPoint[c]) ∧
      carriedCase.noPoint[(3 : Fin 4)].length = 0) ∧
    ((∀ c : Fin 4, c < 3 → programPasses base.clock.subinterval carriedCase.ninePoints[c]) ∧
      8 < carriedCase.ninePoints[(3 : Fin 4)].length) ∧
    ((∀ c : Fin 4, c < 3 → programPasses base.clock.subinterval carriedCase.badPoint[c]) ∧
      carriedCase.badPoint[(3 : Fin 4)].length ≤ 8 ∧
      pointPasses base.clock.subinterval carriedCase.badPoint[(3 : Fin 4)] ⟨0, by decide⟩ ∧
      ¬pointPasses base.clock.subinterval carriedCase.badPoint[(3 : Fin 4)] ⟨1, by decide⟩) := by
  refine ⟨by decide +kernel, ⟨by decide +kernel, fun attributes programs h => ?_⟩, ?_, by
    decide +kernel, ?_, ?_, ?_⟩
  · have := congrArg List.length h
    simp [carriedSchedule] at this
    omega
  all_goals unfold programPasses pointPasses; decide +kernel

theorem test_hyp_LoadsReplaceTheTariffWhole_holidays :
    (base.accepts (.loadHolidays 25 []) = true ∧ 24 < (25 : Byte).toNat) ∧
    ([0, 0] : List Byte).length ≠ 3 * (1 : Byte).toNat ∧
    (base.accepts (.loadHolidays 1 [31, 2, 29]) = true ∧ ¬datesPass [(31, 2, 29)]) ∧
    ¬datesPass [(31, 3, 1), (31, 3, 1)] ∧
    (base.accepts (.loadHolidays 2 [32, 2, 29, 32, 3, 1]) = true ∧
      datesPass [(32, 2, 29), (32, 3, 1)]) ∧
    (datesPass [] ∧ (sweeping 31 base).accepts (.loadHolidays 0 []) = true ∧
      (sweeping 31 base).sweep.running = true) :=
  ⟨by decide +kernel, by decide +kernel,
    ⟨by decide +kernel,
      fun h => absurd (List.forall_mem_singleton.1 h.1) (by decide +kernel)⟩,
    fun h => absurd h.2 (by simp [dateCarried, Date.key]),
    ⟨by decide +kernel,
      List.forall_mem_cons.2
        ⟨by decide +kernel, List.forall_mem_singleton.2 (by decide +kernel)⟩,
      by simp [dateCarried, Date.key]⟩,
    ⟨List.forall_mem_nil _, by simp⟩, by decide +kernel⟩

theorem test_hyp_ReadScheduleReportsTheSlot :
    base.accepts (.readSchedule 8) = true ∧ 7 < (8 : Byte).toNat ∧ (7 : Byte).toNat < 8 ∧
    base.tariff.schedules[7] = none ∧ base.tariff.schedules[0] = some flat := by decide +kernel

theorem test_hyp_ReadHolidaysReportsTheList :
    base.accepts .readHolidays = true ∧ holidaysSound base.tariff.holidays = true := by
  decide +kernel

theorem test_hyp_PeriodLookupFindsThePointInForce :
    (⟨31, 5, 1⟩ : Date) ∈ base.tariff.holidays ∧ (⟨31, 5, 3⟩ : Date) ∉ base.tariff.holidays ∧
    (⟨31, 5, 3⟩ : Date).dayOfWeek = .saturday ∧ (⟨31, 5, 4⟩ : Date).dayOfWeek = .sunday ∧
    (⟨31, 5, 2⟩ : Date).dayOfWeek = .friday ∧
    base.scheduleSlot (2 : Byte).toNat = some (some peaky) ∧ scheduleSound 300 peaky = true := by
  decide +kernel

/-! ## Links and intake queue (section 4.8) -/

/-- A link in a flow state, its HOLD under way. -/
def flowLink (flow : FlowState) (w : Option ControlFrame) (tx : Transmitter)
    (timer : Option Nat) : Link :=
  { plainLink with flow := flow, waitingControl := w, transmitter := tx, holdTimer := timer }

/-- A link that has collected some characters of the frame. -/
def collecting : State :=
  withLink 1 { plainLink with receive := .collecting, collected := frame.bytes.take 24 } base

def spacingState : State := withLink 1 { plainLink with receive := .spacing } base

/-- Link states for the statements on flow control. -/
structure LinkCase where
  held : State
  releasing : State
  holding : State
  flowing : State

/-- Link 0 in each flow state with a running hold timer, before its refresh point. -/
def linkCase : LinkCase :=
  { held := (withLink 0 (flowLink .held none .idle (some 7)) base).setQueue ⟨[], none, true⟩
    releasing := withLink 0 (flowLink .releasePending none .sendingRelease (some 0)) base
    holding := withLink 0 (flowLink .holdPending none (.sendingHold 30) (some 7)) base
    flowing := withLink 0 (flowLink .flowing none .idle (some 7)) base }

theorem test_entry_48 :
    let s := withLink 2 { plainLink with transmitter := .sendingTime ⟨CalTime.origin, 0⟩ }
      (queued 47 (some 0) base)
    let t := after wholeFrame s
    t.queue.entries.length = 48 ∧ t.queue.congested = true ∧
    t.links[0].transmitter = .sendingHold 8 ∧ t.links[0].flow = .holdPending ∧
    t.links[2].waitingControl = some .hold ∧ t.links[2].flow = .holdPending ∧
    t.channels[4].timerMode = .frozen := by
  refine ⟨?_, ?_, ?_, ?_, ?_, ?_, ?_⟩ <;> decide +kernel

theorem test_frame_dropped :
    (after wholeFrame (queued 64 none base)).queue.entries.length = 64 ∧
    (after wholeFrame (queued 64 none base)).attention.pendingSet =
      [⟨.queueOverrun, 1⟩] := by
  refine ⟨?_, ?_⟩ <;> decide +kernel

theorem test_bad_stop :
    let t := after (.frameReceived 1 ⟨0xA1, true⟩ (charsAfterFirst (some 0x66))) base
    t.attention.pendingSet = [⟨.linkError, 1⟩] ∧ t.links[1].errorMark = true ∧
    t.queue.entries = [] := by decide +kernel

/-- R59: a bad first character begins no frame; the 24 behind it are collected. -/
theorem test_bad_first_character :
    let t := after (.frameReceived 1 ⟨0xA1, false⟩ (charsAfterFirst none)) base
    t.links[1].receive = .collecting ∧ t.links[1].collected = frame.bytes.drop 1 ∧
    t.attention.pendingSet = [] := by
  refine ⟨?_, ?_, ?_⟩ <;> decide +kernel

theorem test_character :
    (after (.characterReceived 3 0xA1 true) base).links[3].collected = [0xA1] ∧
    (after (.characterReceived 3 0xA1 false) base).links[3].receive = .waiting := by
  decide +kernel

theorem test_last_character :
    (after (.characterReceived 1 0x36 true) collecting).queue.entries = [frame] := by
  decide +kernel

theorem test_idle_gap :
    (after (.idleGap 1) collecting).attention.pendingSet = [⟨.linkError, 1⟩] ∧
    (after (.idleGap 1) collecting).links[1].receive = .waiting := by decide +kernel

/-- Section 9.9, Event 2. -/
theorem test_break :
    let t := after (.lineBreak 1) base
    t.attention.pendingSet =
      [⟨.linkBreak, 1⟩, ⟨.channelSilent, 4⟩, ⟨.channelSilent, 5⟩, ⟨.channelSilent, 6⟩] ∧
    t.links[1].breakState = .broken ∧ t.channels[0].state = .live := by
  refine ⟨?_, ?_, ?_⟩ <;> decide +kernel

theorem test_line_returns :
    (after (.lineReturnsToMarking 1) spacingState).links[1].receive = .waiting := by
  decide +kernel

theorem test_hold_completes :
    let t := after (.transmissionComplete 0)
      (withLink 0 (flowLink .holdPending none (.sendingHold 7) none) base)
    t.links[0].flow = .held ∧ t.links[0].holdTimer = some 0 ∧ t.links[0].lastHold = 7 := by
  decide +kernel

theorem test_release_completes :
    let t := after (.transmissionComplete 1)
      (withLink 1 (flowLink .releasePending none .sendingRelease (some 3)) base)
    t.links[1].flow = .flowing ∧ t.links[1].holdTimer = none ∧
    t.channels[5].timerMode = .running ∧ t.channels[5].timerHalves = 10 := by decide +kernel

/-- Event 6: a refresh HOLD begins at half the hold time. -/
theorem test_refresh :
    (after (.refreshPoint 0)
        ((withLink 0 (flowLink .held none .idle (some 7)) base).setQueue
          ⟨List.replicate 20 frame, none, true⟩)).links[0].transmitter = .sendingHold 8 := by
  decide +kernel

theorem test_hold_expires :
    (after (.holdExpiry 0)
        (withLink 0 (flowLink .held none .idle (some 15)) base)).links[0].flow = .flowing := by
  decide +kernel

theorem test_read_links :
    said .readLinks (queued 2 (some 1) base) =
      some ⟨.ok, [0, 0, 0, 0, 0, 8, 0, 0] ++ [0, 0, 0, 0, 0, 8, 0, 0] ++
        [0, 0, 0, 0, 0, 8, 0, 0] ++ [0, 0, 0, 0, 0, 8, 0, 0] ++
        [2, 0, 1, 1, 0, 0, 0x10, 0x73, 0]⟩ := by decide +kernel

theorem test_set_hold_time :
    (after (.setHoldTime 2) base).holdTime = 2 ∧
    said (.setHoldTime 31) base = some ⟨.badOperand, []⟩ := by decide +kernel

theorem test_hyp_HoldTimeAndReadLinks :
    base.accepts (.setHoldTime 30) = true ∧ base.accepts (.setHoldTime 31) = true ∧
    base.accepts .readLinks = true := by decide +kernel

theorem test_hyp_CharactersAreAssembled :
    (base.awake = true ∧ base.links[(1 : Fin 4)].receive = .waiting) ∧
    (collecting.awake = true ∧ collecting.links[(1 : Fin 4)].receive = .collecting ∧
      collecting.links[(1 : Fin 4)].collected.length + 1 = 25) ∧
    (let s := withLink 1 { plainLink with
        receive := .collecting, collected := frame.bytes.take 23 } base;
      s.links[(1 : Fin 4)].receive = .collecting ∧
        s.links[(1 : Fin 4)].collected.length + 1 < 25) ∧
    (spacingState.awake = true ∧ spacingState.links[(1 : Fin 4)].receive = .spacing) := by
  decide +kernel

/-- A frame that fails a check from WAITING and one whose last character is bad; a bad first
character; 24 characters at a gap. -/
theorem test_hyp_BadFramesAreDiscarded :
    (3 < (4 : Byte).toNat ∧ (0xA0 : Byte) ≠ 0xA1) ∧
    ((List.replicate 23 (0 : Byte)).length = 23 ∧
      (0 : Byte) ++ (0 : Byte) ≠ crc16 (List.replicate 23 0)) ∧
    (base.awake = true ∧
      frameEnds base.links[(3 : Fin 4)] ⟨0, true⟩ (List.replicate 24 ⟨0, true⟩)
        (List.replicate 25 0) false ∧
      checkFrame 3 (List.replicate 25 0) false = none) ∧
    (collecting.awake = true ∧
      frameEnds collecting.links[(1 : Fin 4)] ⟨0x36, false⟩ [] frame.bytes true ∧
      checkFrame 1 frame.bytes true = none) ∧
    (base.links[(1 : Fin 4)].receive = .waiting ∧ (⟨0xA1, false⟩ : LineChar).goodStop = false) ∧
    (collecting.awake = true ∧ collecting.links[(1 : Fin 4)].receive = .collecting ∧
      collecting.links[(1 : Fin 4)].collected.length < 25) := by
  unfold frameEnds; decide +kernel

theorem test_hyp_GoodFramesAreEnteredOrDropped :
    (base.awake = true ∧ frame.link = 1 ∧
      frameEnds base.links[(1 : Fin 4)] ⟨0xA1, true⟩ (charsAfterFirst none) frame.bytes false) ∧
    (collecting.awake = true ∧
      frameEnds collecting.links[(1 : Fin 4)] ⟨0x36, true⟩ [] frame.bytes false) ∧
    ((queued 63 none base).queue.entries.length < 64 ∧
      (queued 63 none base).queue.entries.length ≠ 47 ∧
      (queued 63 none base).links[(1 : Fin 4)] = base.links[(1 : Fin 4)]) ∧
    ((queued 47 none base).queue.entries.length = 47 ∧
      (queued 47 none base).queue.congested = false ∧
      (queued 47 none base).links[(1 : Fin 4)].flow = .flowing) ∧
    64 ≤ (queued 64 none base).queue.entries.length := by
  unfold frameEnds; decide +kernel

/-- A hold request in each flow state (R68): behind a RELEASE that waits, with a HOLD in
transmission, a hold timer past its hold time, and one short of it. -/
theorem test_hyp_GoodFramesAreEnteredOrDropped_hold :
    (flowLink .flowing none .idle none).flow = .flowing ∧
    ((flowLink .holdPending (some .hold) .idle none).flow = .holdPending ∧
      (flowLink .held none .idle (some 0)).flow = .held) ∧
    (let l := flowLink .releasePending (some .release) (.sendingHold 30) none;
      l.flow = .releasePending ∧ l.waitingControl = some .release ∧
        l.transmitter = .sendingHold 30) ∧
    (let l := flowLink .releasePending (some .release) (.sendingTime ⟨CalTime.origin, 0⟩) (some 8);
      l.flow = .releasePending ∧ l.waitingControl = some .release ∧
        (∀ carried, l.transmitter ≠ .sendingHold carried) ∧ l.holdTimer = some 8 ∧
        l.lastHold ≤ 8) ∧
    (let l := flowLink .releasePending (some .release) (.sendingTime ⟨CalTime.origin, 0⟩) (some 7);
      (∀ carried, l.transmitter ≠ .sendingHold carried) ∧
        ∀ halves, l.holdTimer = some halves → halves < l.lastHold) ∧
    (let l := flowLink .releasePending none .sendingRelease none;
      l.flow = .releasePending ∧ l.waitingControl ≠ some .release) := by
  refine ⟨rfl, ⟨rfl, rfl⟩, ⟨rfl, rfl, rfl⟩, ⟨rfl, rfl, fun c h => ?_, rfl, by decide⟩,
    ⟨fun c h => ?_, fun n h => ?_⟩, rfl, by decide⟩
  · cases h
  · cases h
  · cases h
    decide

theorem test_hyp_BreakSilencesTheLink :
    (base.awake = true ∧ base.links[(1 : Fin 4)].receive ≠ .spacing ∧
      linkOf 6 = 1 ∧ base.channels[(6 : Fin 16)].state = .live) ∧
    (spacingState.awake = true ∧ spacingState.links[(1 : Fin 4)].receive = .spacing) := by
  decide +kernel

theorem test_hyp_TransmissionCompletes :
    (base.awake = true ∧ base.links[(0 : Fin 4)].transmitter = .idle) ∧
    (let l : Link := { plainLink with transmitter := .sendingTime ⟨CalTime.origin, 0⟩ };
      (withLink 0 l base).links[(0 : Fin 4)] = l ∧ l.waitingControl = none ∧
        l.waitingTime = none) ∧
    (let l : Link := { plainLink with
        transmitter := .sendingTime ⟨CalTime.origin, 0⟩, waitingControl := some .hold,
        waitingTime := some ⟨CalTime.origin, 1⟩ };
      (withLink 0 l base).links[(0 : Fin 4)] = l) ∧
    (let l := flowLink .flowing none (.sendingHold 2) none;
      (withLink 0 l base).links[(0 : Fin 4)] = l ∧ l.transmitter = .sendingHold 2 ∧
        l.flow = .flowing) ∧
    (linkCase.holding.links[(0 : Fin 4)].transmitter = .sendingHold 30 ∧
      linkCase.holding.links[(0 : Fin 4)].flow = .holdPending ∧
      linkCase.holding.links[(0 : Fin 4)].waitingControl = none ∧
      linkCase.holding.links[(0 : Fin 4)].waitingTime = none) ∧
    (let l := flowLink .releasePending (some .release) (.sendingHold 2) none;
      (withLink 0 l base).links[(0 : Fin 4)] = l ∧ l.transmitter = .sendingHold 2 ∧
        l.flow = .releasePending ∧ l.waitingControl = some .release) ∧
    (let l := flowLink .holdPending (some .hold) .sendingRelease (some 0);
      (withLink 0 l base).links[(0 : Fin 4)] = l ∧ l.transmitter = .sendingRelease ∧
        l.flow = .holdPending ∧ l.waitingControl = some .hold) ∧
    (linkCase.releasing.awake = true ∧
      linkCase.releasing.links[(0 : Fin 4)].transmitter = .sendingRelease ∧
      linkCase.releasing.links[(0 : Fin 4)].flow = .releasePending ∧
      linkCase.releasing.links[(0 : Fin 4)].waitingControl = none ∧
      linkCase.releasing.links[(0 : Fin 4)].waitingTime = none) := by decide +kernel

/-- The hold time of last HOLD is 8 s, so the refresh point is 8 half seconds after it. -/
theorem test_hyp_RefreshAndExpiry :
    (linkCase.held.awake = true ∧ linkCase.held.links[(0 : Fin 4)].holdTimer = some 7 ∧
      7 < linkCase.held.links[(0 : Fin 4)].lastHold ∧
      linkCase.held.links[(0 : Fin 4)].flow = .held ∧ linkCase.held.queue.congested = true ∧
      linkCase.held.links[(0 : Fin 4)].waitingControl = none ∧
      linkCase.held.links[(0 : Fin 4)].transmitter = .idle) ∧
    (let l := flowLink .held none (.sendingTime ⟨CalTime.origin, 0⟩) (some 7);
      let s := (withLink 0 l base).setQueue ⟨[], none, true⟩;
      s.awake = true ∧ s.links[(0 : Fin 4)] = l ∧ l.holdTimer = some 7 ∧ 7 < l.lastHold ∧
        l.flow = .held ∧ s.queue.congested = true ∧ l.waitingControl = none ∧
        l.transmitter ≠ .idle) ∧
    (linkCase.releasing.links[(0 : Fin 4)].holdTimer = some 0 ∧
      linkCase.releasing.links[(0 : Fin 4)].flow = .releasePending) ∧
    (linkCase.holding.links[(0 : Fin 4)].holdTimer = some 7 ∧
      linkCase.holding.links[(0 : Fin 4)].flow = .holdPending) ∧
    (linkCase.flowing.links[(0 : Fin 4)].holdTimer = some 7 ∧
      linkCase.flowing.links[(0 : Fin 4)].flow = .flowing) := by decide +kernel

/-! ## Channels (sections 5.10 and 5.11) -/

/-- What a seal leaves of a channel. -/
structure SealFace where
  window : Triple Quantity
  catchUp : Triple Quantity
  credit : Triple Quantity
  estimated : Bool
  deriving DecidableEq

def sealFace (c : Channel) : SealFace :=
  ⟨c.sealedWindow, c.sealedCatchUp, c.credit, c.sealedEstimated⟩

/-- Channel 6 under a policy, SILENT. -/
def silentMeter (policy : Policy) : Channel :=
  { meter with
    state := .silent, policy := policy, wasSilent := true, timerMode := .stopped,
    timerHalves := 0 }

def channel6 (c : Channel) : State := base.setChannel 6 c

/-- Event 2. -/
theorem test_presence_expires :
    (after (.presenceTimerExpiry 6) base).channels[6] = silentMeter .holdLast ∧
    (after (.presenceTimerExpiry 6) base).attention.pendingSet = [⟨.channelSilent, 6⟩] := by
  decide +kernel

/-- Event 3 under both policies. -/
theorem test_seal_silent :
    let t := after .takeMarker (queued 0 (some 0) (channel6 (silentMeter .holdLast)))
    let u := after .takeMarker (queued 0 (some 0) (channel6 (silentMeter .defer)))
    sealFace t.channels[6] = ⟨⟨300000, 180000, 2000⟩, Triple.same 0, ⟨150000, 90000, 0⟩, true⟩ ∧
    sealFace u.channels[6] = ⟨⟨150000, 90000, 2000⟩, Triple.same 0, Triple.same 0, true⟩ ∧
    t.channels[6].openWindow = Triple.same 0 ∧ t.channels[6].silenceSpannedSeal = true ∧
    t.sweep.running = true ∧ t.sweep.b = 4211 := by
  refine ⟨?_, ?_, ?_, ?_, ?_, ?_⟩ <;> decide +kernel

/-- Before Event 5. -/
def spannedMeter (policy : Policy) (credit : Triple Quantity) : Channel :=
  { silentMeter policy with
    openWindow := Triple.same 0, credit := credit, silenceSpannedSeal := true }

theorem test_resume_hold_last :
    let t := after .takeFrameEntry
      (queued 1 none (channel6 (spannedMeter .holdLast ⟨450000, 270000, 0⟩)))
    t.channels[6].openWindow = ⟨50000, 0, 3000⟩ ∧ t.channels[6].credit = Triple.same 0 ∧
    t.channels[6].state = .live ∧ t.channels[6].lastSequence = some 41 ∧
    t.attention.pendingSet = [⟨.substitutionExcess, 6⟩, ⟨.channelResumed, 6⟩] := by
  refine ⟨?_, ?_, ?_, ?_, ?_⟩ <;> decide +kernel

theorem test_resume_defer :
    let t := after .takeFrameEntry
      (queued 1 none (channel6 (spannedMeter .defer (Triple.same 0))))
    t.channels[6].openCatchUp = ⟨500000, 250000, 3000⟩ ∧
    t.channels[6].openWindow = Triple.same 0 ∧
    t.attention.pendingSet = [⟨.channelResumed, 6⟩] := by
  refine ⟨?_, ?_, ?_⟩ <;> decide +kernel

theorem test_register_meter :
    said (.registerMeter 3 7 9) base = some ⟨.ok, [0]⟩ ∧
    (after (.registerMeter 3 7 9) base).channels[3].timerHalves = 10 ∧
    (after (.registerMeter 3 7 9)
      (base.setChannel 3 { Channel.cleared with referenceCount := 5 })).channels[3].referenceCount =
        0 ∧
    said (.registerMeter 16 7 9) base = some ⟨.badOperand, []⟩ := by decide +kernel

theorem test_release_meter :
    said (.releaseMeter 0) (withAccount .active) = some ⟨.inUse, []⟩ ∧
    (after (.releaseMeter 6) base).channels[6].state = .unregistered := by decide +kernel

theorem test_channel_policy :
    (after (.setChannelPolicy 6 1 60 5) base).channels[6].policy = .defer ∧
    (after (.setChannelPolicy 6 1 60 5) base).channels[6].timerHalves = 120 ∧
    said (.setChannelPolicy 6 1 61 5) base = some ⟨.badOperand, []⟩ := by decide +kernel

/-- A cleared channel: 38 bytes, the sums and their marks in 110, and three. -/
theorem test_read_channel :
    (said (.readChannel 15) base).map (fun r => (r.status, r.data.take 11, r.data.length)) =
      some (.ok, [0, 0, 0, 0, 0, 0, 0, 0, 0, 5, 0], 151) := by decide +kernel

theorem test_hyp_ChannelCommandsSetTheRecord :
    (base.accepts (.registerMeter 16 1 1) = true ∧ 15 < (16 : Byte).toNat) ∧
    (base.accepts (.registerMeter 15 1 1) = true ∧ (15 : Byte).toNat = (15 : Fin 16).val ∧
      (1 : Quantity) ≠ 0 ∧ (1 : Word) ≠ 0 ∧
      base.channels[(15 : Fin 16)].state = .unregistered ∧
      base.channels[(0 : Fin 16)].state ≠ .unregistered) ∧
    (base.accepts (.releaseMeter 6) = true ∧ (6 : Byte).toNat = (6 : Fin 16).val ∧
      base.channels[(6 : Fin 16)].referenceCount = 0 ∧
      base.channels[(6 : Fin 16)].state ≠ .unregistered) ∧
    ((withAccount .active).accepts (.releaseMeter 0) = true ∧
      (withAccount .active).channels[(0 : Fin 16)].referenceCount ≠ 0 ∧
      base.channels[(15 : Fin 16)].referenceCount = 0) ∧
    (base.accepts (.setChannelPolicy 0 1 60 1) = true ∧ policyOf 1 = some .defer ∧
      policyOf 0 = some .holdLast ∧ (60 : Byte).toNat ≤ 60 ∧ 2 ≤ (2 : Byte).toNat ∧
      1 < (2 : Byte).toNat ∧ 60 < (61 : Byte).toNat) := by decide +kernel

theorem test_hyp_ReadsOfClockChannelSweepAndIdentity :
    base.accepts .readClock = true ∧ base.accepts (.readChannel 15) = true ∧ base.accepts (.readChannel 16) = true ∧
    (15 : Byte).toNat = (15 : Fin 16).val ∧ base.accepts .readSweep = true ∧
    base.accepts .readIdentity = true := by decide +kernel

theorem test_hyp_PresenceTimerExpires :
    (base.awake = true ∧ base.channels[(6 : Fin 16)].timerMode = .running ∧
      base.channels[(6 : Fin 16)].state = .live) ∧
    ((channel6 { meter with state := .awaiting }).channels[(6 : Fin 16)].timerMode = .running ∧
      (channel6 { meter with state := .awaiting }).channels[(6 : Fin 16)].state ≠ .live) ∧
    base.channels[(15 : Fin 16)].timerMode ≠ .running := by decide +kernel

theorem test_hyp_TakingAnEntry :
    ((queued 17 none base).awake = true ∧ (queued 17 none base).markerAtHead = false ∧
      (queued 17 none base).queue.entries = frame :: List.replicate 16 frame ∧
      (queued 17 none base).queue.congested = false) ∧
    (let s := queued 1 (some 1) (sweeping 9 base);
      s.awake = true ∧ s.markerAtHead = false ∧ s.queue.entries = [frame] ∧
        s.queue.marker.map QueuedMarker.position = some 1 ∧ s.sweep.running = true) ∧
    (let s := base.setQueue ⟨List.replicate 17 frame, none, true⟩;
      s.awake = true ∧ s.markerAtHead = false ∧
        s.queue.entries = frame :: List.replicate 16 frame ∧ s.queue.congested = true) ∧
    (let l := flowLink .holdPending (some .hold) .sendingRelease none;
      l.flow = .holdPending ∧ l.waitingControl = some .hold ∧ l.transmitter = .sendingRelease) ∧
    (let l := flowLink .holdPending (some .hold) (.sendingHold 8) none;
      l.flow = .holdPending ∧ l.waitingControl = some .hold ∧ l.transmitter ≠ .sendingRelease) ∧
    (let l := flowLink .holdPending none (.sendingHold 8) none;
      l.flow = .holdPending ∧ l.waitingControl ≠ some .hold) ∧
    (flowLink .held none .idle (some 3)).flow = .held := by
  refine ⟨?_, ?_, ?_, ?_, ?_, ?_, ?_⟩ <;> decide +kernel

/-- The elapsed time is 550 s, as in section 5.10; the rated power 1 W makes the frame
implausible. -/
theorem test_hyp_FramesAreJudgedInOrder :
    (Channel.cleared.state = .unregistered ∧ meter.state = .live ∧
      meter.identity = some frame.identity ∧ meter.lastSequence = some 40 ∧
      meter.lastTotals = some ⟨1000000, 500000, 20000⟩ ∧ meter.ratedPower = some 4000000 ∧
      meter.lastSecond = some 1000) ∧
    (frame.sequence - (40 : Byte) ≠ 0 ∧ (frame.sequence - (40 : Byte)).toNat < 128 ∧
      frame.sequence - (41 : Byte) = 0 ∧ 128 ≤ (frame.sequence - (169 : Byte)).toNat) ∧
    ¬beyondBound (4000000 : Word).toNat ((1550 : Word) - 1000).toNat
      (incrementsOver ⟨1000000, 500000, 20000⟩ frame) ∧
    beyondBound (1 : Word).toNat ((1550 : Word) - 1000).toNat
      (incrementsOver ⟨1000000, 500000, 20000⟩ frame) ∧
    ((silentMeter .defer).state = .silent ∧ (silentMeter .defer).policy = .defer ∧
      (silentMeter .holdLast).policy = .holdLast) ∧
    (let c := { silentMeter .holdLast with ratedPower := some 1, implausibleRun := 2 };
      c.state = .silent ∧ c.identity = some frame.identity ∧ c.lastSequence = some 40 ∧
        c.lastTotals = some ⟨1000000, 500000, 20000⟩ ∧ c.ratedPower = some 1 ∧
        c.lastSecond = some 1000 ∧ 2 ≤ c.implausibleRun) := by
  unfold beyondBound; decide +kernel

theorem test_hyp_TakingTheMarkerSealsAndStarts :
    let s := queued 64 (some 0) base
    s.awake = true ∧ s.queue.marker = some ⟨⟨4211, ⟨⟨31, 3, 14⟩, 10, 15, 0⟩, .regular⟩, 0⟩ ∧
    s.sweep.running = false ∧ (4211 : Word) - s.sweep.b = 1 := by decide +kernel

/-! ## Account table (sections 1.9 and 1.10) -/

/-- An account operand whose channel, schedule or feed list fails a step of R15. -/
structure ContractCase where
  noAccountNumber : ContractImage
  twice : ContractImage
  emptySchedule : ContractImage
  unregistered : ContractImage

def contractCase : ContractCase :=
  { noAccountNumber := image 0 netFeed
    twice := image 1 [⟨0, 1⟩, ⟨0, 2⟩]
    emptySchedule := { image 1 netFeed with schedule := 7 }
    unregistered := image 1 [⟨15, 1⟩] }

theorem test_open_first :
    let c : ContractImage := image 5100 [⟨0, 1⟩, ⟨1, 2⟩]
    said (.openAccount c) base = some ⟨.ok, [0]⟩ ∧
    (after (.openAccount c) base).directory = [⟨5100, 0⟩] ∧
    (after (.openAccount c) base).slots[0].lastBoundary = 4210 ∧
    (after (.openAccount c) base).channels[1].referenceCount = 1 := by
  refine ⟨?_, ?_, ?_, ?_⟩ <;> decide +kernel

theorem test_open_second :
    let s := holding 0 (account 5100 [⟨0, 1⟩, ⟨1, 2⟩] .opening) base
    let c : ContractImage := image 2200 [⟨1, 1⟩]
    said (.openAccount c) s = some ⟨.ok, [1]⟩ ∧
    (after (.openAccount c) s).directory = [⟨2200, 1⟩, ⟨5100, 0⟩] ∧
    (after (.openAccount c) s).channels[1].referenceCount = 2 ∧
    said (.openAccount (image 5100 [⟨1, 1⟩])) s = some ⟨.duplicate, []⟩ := by
  refine ⟨?_, ?_, ?_, ?_⟩ <;> decide +kernel

theorem test_retire_opening :
    let s := holding 0 (account 5100 [⟨0, 1⟩, ⟨1, 2⟩] .opening) base
    said (.retireAccount 5100) s = some ⟨.ok, [0]⟩ ∧
    (after (.retireAccount 5100) s).slots[0] = Account.cleared ∧
    (after (.retireAccount 5100) s).directory = [] ∧
    (after (.retireAccount 5100) s).channels[0].referenceCount = 0 := by
  refine ⟨?_, ?_, ?_, ?_⟩ <;> decide +kernel

/-- Slots 0 to 2 of section 1.9, Event 7. -/
def threeAccounts : State :=
  holding 2 (account 3300 [⟨5, 1⟩, ⟨0, 1⟩] .opening)
    (holding 1 (account 2200 [⟨1, 1⟩] .opening)
      (holding 0 (account 4000 [⟨0, 1⟩, ⟨1, 2⟩] .opening) base))

theorem test_list_accounts :
    said (.listAccounts 3000) threeAccounts =
      some ⟨.ok, [2, 0, 0, 0x0C, 0xE4, 2, 1, 0, 0, 0x0F, 0xA0, 0, 1, 0]⟩ := by decide +kernel

/-- A FAULTED account with a STAGED amendment that raises the contract demand. -/
def faultedAccount : State :=
  holding 3
    { account 7020 [⟨2, 1⟩] .faulted with
      checkCode := 0, lastBoundary := 4209,
      amendment := some ⟨.staged, { image 7020 [⟨2, 1⟩] with contractDemand := 2200000 }⟩ } base

theorem test_repair :
    let t := after (.commitAmendment 7020 1) faultedAccount
    t.slots[3].state = .active ∧ t.slots[3].lastBoundary = 4210 ∧
    t.slots[3].contract.contractDemand = 2200000 ∧ t.slots[3].amendment = none ∧
    t.verified 3 = true ∧ t.attention.pendingSet = [⟨.amendmentApplied, 3⟩] ∧
    t.channels[2].referenceCount = 1 := by
  refine ⟨?_, ?_, ?_, ?_, ?_, ?_, ?_⟩ <;> decide +kernel

/-- READ ACCOUNT 7020: FAULTED, and the check codes unequal. -/
theorem test_read_account :
    (said (.readAccount 7020) faultedAccount).map
        (fun r => (r.status, r.data.take 2, r.data.length)) =
      some (.ok, [3, 6], 91) ∧
    said (.readAccount 7021) faultedAccount = some ⟨.noAccount, []⟩ := by
  refine ⟨?_, ?_⟩ <;> decide +kernel

/-- Section 10.6: 57 bytes for the register set and peak record with the period, then the
window. -/
theorem test_read_registers :
    (said (.readRegisters 8800 1)
        (holding 2 { account 8800 netFeed .active with
          window := List.replicate 15 ⟨Triple.same 0, false⟩ } base)).map
      (fun r => (r.status, r.data.length)) = some (.ok, 343) ∧
    said (.readRegisters 8800 4) (withAccount .active) = some ⟨.badOperand, []⟩ := by
  refine ⟨?_, ?_⟩ <;> decide +kernel

theorem test_read_peaks :
    (said (.readPeaks 8800) (withAccount .active)).map (fun r => (r.status, r.data.take 5)) =
      some (.ok, [2, 1, 3, 1, 0]) := by decide +kernel

theorem test_read_sweep :
    said .readSweep (sweeping 12 base) =
      some ⟨.ok, [1, 0, 0, 0x10, 0x73, 31, 6, 2, 14, 5, 0, 0, 12, 0]⟩ := by decide +kernel

/-- Every slot holds an account. -/
def fullTable : State :=
  base.setSlots (Vector.replicate 32 (account 9 netFeed .active))

/-- Account 8800 is settled in each state that a command meets. -/
theorem test_settled :
    ∀ st ∈ [AccountState.opening, .active, .suspended, .retiring, .retired, .faulted],
      (withAccount st).lookup 8800 = some 2 ∧ (withAccount st).oneBehind 2 = false ∧
      ((withAccount st).slots[(2 : Fin 32)].state.swept = true →
        (withAccount st).verified 2 = true) := by decide +kernel

theorem test_hyp_OpenAccountTakesTheLowestSlot :
    (base.accepts (.openAccount contractCase.noAccountNumber) = true ∧
      contractFieldsOk contractCase.noAccountNumber = false) ∧
    (contractFieldsOk contractCase.twice = true ∧
      noDuplicateFeed contractCase.twice.terms = false) ∧
    (contractFieldsOk contractCase.emptySchedule = true ∧
      noDuplicateFeed contractCase.emptySchedule.terms = true ∧
      base.scheduleLoaded contractCase.emptySchedule.schedule.toNat = false) ∧
    (contractFieldsOk contractCase.unregistered = true ∧
      noDuplicateFeed contractCase.unregistered.terms = true ∧
      base.scheduleLoaded contractCase.unregistered.schedule.toNat = true ∧
      ∃ u ∈ contractCase.unregistered.terms, base.registered u.channel.toNat = false) ∧
    ((withAccount .retired).contractCheck (image 8800 netFeed) = none ∧
      ((withAccount .retired).lookup 8800).isSome = true) ∧
    (fullTable.contractCheck (image 8800 netFeed) = none ∧ fullTable.lookup 8800 = none ∧
      ∀ i : Fin 32, fullTable.slots[i].state ≠ .vacant) ∧
    (threeAccounts.contractCheck (image 8800 netFeed) = none ∧
      threeAccounts.lookup 8800 = none ∧ threeAccounts.slots[(3 : Fin 32)].state = .vacant ∧
      (∀ j : Fin 32, j < 3 → threeAccounts.slots[j].state ≠ .vacant) ∧
      directoryAscends threeAccounts.directory = true) := by
  refine ⟨?_, ?_, ?_, ?_, ?_, ?_, ?_⟩ <;> decide +kernel

theorem test_hyp_AccountReadsChangeNothing :
    base.accepts (.listAccounts 0) = true ∧ settled 8800 2 (withAccount .active) ∧
    (withAccount .active).accepts (.readAccount 8800) = true ∧
    (withAccount .active).accepts (.readRegisters 8800 4) = true ∧ 3 < (4 : Byte).toNat ∧
    (withAccount .active).accepts (.readRegisters 8800 3) = true ∧
    (3 : Byte).toNat = (3 : Fin 4).val ∧
    (withAccount .active).accepts (.readPeaks 8800) = true := by
  unfold settled; decide +kernel

/-! ## Period close, amendment, suspension and retirement -/

/-- The figures of a close. -/
structure Figures where
  average : Word
  ratchetApplied : Word
  billingDemand : Word
  deriving DecidableEq

def figures (a : Account) : Option Figures :=
  a.snapshot.map fun p => ⟨p.average, p.ratchetApplied, p.billingDemand⟩

/-- A demand of a day of June 2031. -/
def demandOn (day : Nat) (demand : Word) : TopEntry :=
  ⟨demand, ⟨⟨31, 6, day⟩, 11, 0, 0⟩, ⟨31, 6, day⟩, false, false⟩

/-- A snapshot of nothing. -/
def emptySnapshot (final : Bool) : Snapshot :=
  { periodCount := 11, closeTime := CalTime.origin,
    registers := Vector.replicate 4 RegisterSet.zero, topList := [], average := 0,
    ratchetApplied := 0, billingDemand := 0, finalClose := final, faulted := false,
    estimatedAny := false }

/-- Account 8800 with a snapshot. -/
def closedAccount (state : AccountState) (final : Bool) : State :=
  holding 2 { account 8800 netFeed state with snapshot := some (emptySnapshot final) } base

theorem test_close_keeps_ratchet :
    let a := closed false false CalTime.origin { account 8800 netFeed .active with
      topList := [demandOn 2 5200000, demandOn 5 5010000, demandOn 3 4950000],
      ratchetValue := 5300000, ratchetRemaining := 2 }
    a.ratchetValue = 5300000 ∧ a.ratchetRemaining = 1 ∧ a.topList = [] ∧
    figures a = some ⟨5053333, 5300000, 5300000⟩ := by
  refine ⟨?_, ?_, ?_, ?_⟩ <;> decide +kernel

theorem test_close_renews_ratchet :
    let a := closed false false CalTime.origin { account 6100 netFeed .active with
      contract :=
        { image 6100 netFeed with
          peaksAveraged := 2, minimumBilling := 1000000, ratchetPercent := 80,
          ratchetPeriods := 3 },
      topList := [demandOn 2 4000000, demandOn 5 3600000], periodCount := 11 }
    a.ratchetValue = 3040000 ∧ a.ratchetRemaining = 3 ∧ a.periodCount = 12 ∧
    figures a = some ⟨3800000, 0, 3800000⟩ := by
  refine ⟨?_, ?_, ?_, ?_⟩ <;> decide +kernel

theorem test_close_period :
    said (.closePeriod 8800) (withAccount .active) = some ⟨.ok, [0]⟩ ∧
    said (.closePeriod 8800) (closedAccount .active false) = some ⟨.snapshotUnread, []⟩ := by
  decide +kernel

theorem test_fetch_closed :
    (said (.fetchClosed 8800) (closedAccount .active false)).map
      (fun r => (r.status, r.data.take 7, r.data.getLast?)) =
        some (.ok, [0, 0, 0x22, 0x60, 2, 0, 11], some 0) ∧
    (after (.fetchClosed 8800) (closedAccount .retired true)).slots[2] = Account.cleared ∧
    said (.fetchClosed 8800) (withAccount .active) = some ⟨.noSnapshot, []⟩ := by
  refine ⟨?_, ?_, ?_⟩ <;> decide +kernel

theorem test_stage_amendment :
    let t := after (.stageAmendment 8800 (image 8800 [⟨1, 1⟩])) (withAccount .active)
    t.slots[2].amendment = some ⟨.staged, image 8800 [⟨1, 1⟩]⟩ ∧
    t.channels[1].referenceCount = 1 ∧
    said (.stageAmendment 8800 (image 8801 [⟨1, 1⟩])) (withAccount .active) =
      some ⟨.badOperand, []⟩ := by
  refine ⟨?_, ?_, ?_⟩ <;> decide +kernel

/-- Account 8800 with an amendment. -/
def amended (state : AccountState) (status : AmendmentStatus) : State :=
  holding 2
    { account 8800 netFeed state with amendment := some ⟨status, image 8800 [⟨1, 1⟩]⟩ } base

theorem test_commit_amendment :
    (after (.commitAmendment 8800 1) (amended .active .staged)).slots[2].amendment =
      some ⟨.committed .atClose, image 8800 [⟨1, 1⟩]⟩ ∧
    said (.commitAmendment 8800 0) (withAccount .active) = some ⟨.nothingStaged, []⟩ := by
  decide +kernel

theorem test_withdraw_amendment :
    said (.withdrawAmendment 8800) (amended .active (.committed .atClose)) = some ⟨.ok, [2]⟩ ∧
    (after (.withdrawAmendment 8800) (amended .active .staged)).channels[1].referenceCount =
      0 := by decide +kernel

/-- An AT_BOUNDARY amendment is applied at the step and moves the reference counts. -/
theorem test_apply_amendment :
    let t := after .sweepVisit (sweeping 2 (amended .active (.committed .atBoundary)))
    t.slots[2].contract = image 8800 [⟨1, 1⟩] ∧ t.slots[2].amendment = none ∧
    t.channels[0].referenceCount = 0 ∧ t.channels[1].referenceCount = 1 ∧
    t.attention.pendingSet = [⟨.amendmentApplied, 2⟩] := by
  refine ⟨?_, ?_, ?_, ?_, ?_⟩ <;> decide +kernel

/-- Account 8800 with suspend or resume pending. -/
def pendingChange (state : AccountState) (suspend resume : Bool) : State :=
  holding 2 { account 8800 netFeed state with
    suspendPending := suspend, resumePending := resume } base

theorem test_suspend :
    said (.suspendAccount 8800) (withAccount .active) = some ⟨.ok, [0]⟩ ∧
    said (.suspendAccount 8800) (pendingChange .suspended false true) = some ⟨.ok, [2]⟩ := by
  decide +kernel

theorem test_resume :
    said (.resumeAccount 8800) (withAccount .suspended) = some ⟨.ok, [0]⟩ ∧
    said (.resumeAccount 8800) (withAccount .opening) = some ⟨.wrongState, []⟩ := by
  decide +kernel

/-- Section 8.6: a step suspends the account. -/
theorem test_step_suspends :
    (after .sweepVisit (sweeping 2 (pendingChange .active true false))).slots[2].state =
      .suspended := by decide +kernel

theorem test_retire :
    said (.retireAccount 8800) (withAccount .suspended) = some ⟨.ok, [1]⟩ ∧
    (after (.retireAccount 7020) faultedAccount).slots[3].state = .retired := by
  decide +kernel

/-- A step closes a RETIRING account for the last time and releases its terms. -/
theorem test_final_close :
    let t := after .sweepVisit (sweeping 2 (withAccount .retiring))
    t.slots[2].state = .retired ∧ t.slots[2].snapshot.map Snapshot.finalClose = some true ∧
    t.channels[0].referenceCount = 0 ∧ t.attention.pendingSet = [⟨.closeDone, 2⟩] := by
  refine ⟨?_, ?_, ?_, ?_⟩ <;> decide +kernel

theorem test_hyp_CloseIsAskedAndSnapshotFetched :
    (settled 8800 2 (withAccount .active) ∧
      (withAccount .active).slots[(2 : Fin 32)].state ≠ .faulted ∧
      (withAccount .active).accepts (.closePeriod 8800) = true ∧
      (withAccount .active).accepts (.fetchClosed 8800) = true ∧
      (withAccount .active).slots[(2 : Fin 32)].snapshot = none) ∧
    (settled 8800 2 (closedAccount .suspended false) ∧
      (closedAccount .suspended false).slots[(2 : Fin 32)].snapshot =
        some (emptySnapshot false)) ∧
    (settled 8800 2 (closedAccount .retired true) ∧
      (closedAccount .retired true).slots[(2 : Fin 32)].snapshot = some (emptySnapshot true) ∧
      (closedAccount .retired true).slots[(2 : Fin 32)].state = .retired ∧
      (closedAccount .retired true).slots[(2 : Fin 32)].amendment = none) := by
  unfold settled; decide +kernel

/-- STAGE AMENDMENT: the barred accounts, each refusal of R15, another account's number, and the
place EMPTY and STAGED. -/
theorem test_hyp_AmendmentsAreStagedCommittedWithdrawn_stage :
    (settled 8800 2 (withAccount .retiring) ∧
      (withAccount .retiring).slots[(2 : Fin 32)].state = .retiring ∧
      (withAccount .retiring).accepts (.stageAmendment 8800 (image 8800 netFeed)) = true) ∧
    (settled 8800 2 (withAccount .retired) ∧
      (withAccount .retired).slots[(2 : Fin 32)].state = .retired) ∧
    (settled 8800 2 (amended .active (.committed .atClose)) ∧
      (amended .active (.committed .atClose)).slots[(2 : Fin 32)].amendment =
        some ⟨.committed .atClose, image 8800 [⟨1, 1⟩]⟩) ∧
    (let s := withAccount .active;
      settled 8800 2 s ∧ s.accepts (.stageAmendment 8800 (image 8801 netFeed)) = true ∧
      s.slots[(2 : Fin 32)].state = .active ∧ s.slots[(2 : Fin 32)].amendment = none ∧
      contractFieldsOk contractCase.noAccountNumber = false ∧
      noDuplicateFeed contractCase.twice.terms = false ∧
      contractFieldsOk contractCase.twice = true ∧
      s.scheduleLoaded contractCase.emptySchedule.schedule.toNat = false ∧
      (∃ u ∈ contractCase.unregistered.terms, s.registered u.channel.toNat = false) ∧
      s.contractCheck (image 8801 netFeed) = none ∧
      s.directoryAccount 2 ≠ some (image 8801 netFeed).account ∧
      s.contractCheck (image 8800 netFeed) = none ∧
      s.directoryAccount 2 = some (image 8800 netFeed).account) ∧
    (let s := amended .active .staged;
      settled 8800 2 s ∧ s.contractCheck (image 8800 netFeed) = none ∧
      s.directoryAccount 2 = some 8800 ∧
      s.slots[(2 : Fin 32)].amendment = some ⟨.staged, image 8800 [⟨1, 1⟩]⟩ ∧
      ∀ k : Fin 16, naming k (image 8800 [⟨1, 1⟩]).terms ≤ s.channels[k].referenceCount) := by
  unfold settled; decide +kernel

theorem test_hyp_AmendmentsAreStagedCommittedWithdrawn :
    (settled 8800 2 (amended .active .staged) ∧
      (amended .active .staged).accepts (.commitAmendment 8800 2) = true ∧
      1 < (2 : Byte).toNat ∧ modeOf 1 = some .atClose ∧
      (amended .active .staged).slots[(2 : Fin 32)].amendment =
        some ⟨.staged, image 8800 [⟨1, 1⟩]⟩) ∧
    (settled 7020 3 faultedAccount ∧ faultedAccount.accepts (.commitAmendment 7020 0) = true ∧
      faultedAccount.slots[(3 : Fin 32)].state = .faulted ∧
      (stagedContract faultedAccount.slots[(3 : Fin 32)]).isSome = true) ∧
    (settled 8800 2 (withAccount .active) ∧
      stagedContract (withAccount .active).slots[(2 : Fin 32)] = none) ∧
    (let s := amended .active (.committed .atBoundary);
      s.accepts (.withdrawAmendment 8800) = true ∧
      naming 1 (image 8800 [⟨1, 1⟩]).terms ≤ s.channels[(1 : Fin 16)].referenceCount) := by
  unfold settled; decide +kernel

theorem test_hyp_SuspendAndResumeCancelEachOther :
    (settled 8800 2 (pendingChange .active true false) ∧
      (pendingChange .active true false).slots[(2 : Fin 32)].state ≠ .faulted ∧
      (pendingChange .active true false).accepts (.suspendAccount 8800) = true) ∧
    (settled 8800 2 (pendingChange .suspended false true) ∧
      (pendingChange .suspended false true).slots[(2 : Fin 32)].state ≠ .faulted ∧
      (pendingChange .suspended false true).accepts (.resumeAccount 8800) = true) := by
  unfold settled; decide +kernel

theorem test_hyp_RetireActsByState :
    (settled 8800 2 (withAccount .retiring) ∧
      (withAccount .retiring).accepts (.retireAccount 8800) = true) ∧
    (settled 8800 2 (closedAccount .active false) ∧
      (closedAccount .active false).slots[(2 : Fin 32)].snapshot ≠ none) ∧
    (settled 8800 2 (withAccount .opening) ∧
      (withAccount .opening).slots[(2 : Fin 32)].snapshot = none) ∧
    settled 8800 2 (withAccount .suspended) ∧ settled 7020 3 faultedAccount ∧
    faultedAccount.slots[(3 : Fin 32)].snapshot = none := by
  unfold settled; decide +kernel

/-- An ACTIVE account whose stored contract does not verify. -/
def disturbed : State :=
  holding 2 { account 8800 netFeed .active with checkCode := 0 } base

theorem test_hyp_AccountCommandsPassThroughTheOrder :
    (base.accepts (.retireAccount 1) = true ∧ base.lookup 1 = none) ∧
    ((withAccount .faulted).accepts (.closePeriod 8800) = true ∧
      (withAccount .faulted).lookup 8800 = some 2 ∧
      (withAccount .faulted).slots[(2 : Fin 32)].state = .faulted) ∧
    (disturbed.accepts (.suspendAccount 8800) = true ∧ disturbed.lookup 8800 = some 2 ∧
      disturbed.slots[(2 : Fin 32)].state.swept = true ∧ disturbed.verified 2 = false) ∧
    (let s := sweeping 0 (withAccount .active);
      s.lookup 8800 = some 2 ∧ s.oneBehind 2 = true ∧ settled 8800 2 (s.boundaryStep 2) ∧
      s.accepts (.readAccount 8800) = true ∧ s.accepts (.readPeaks 8800) = true) := by
  unfold settled; decide +kernel

/-! ## The boundary sweep, demand and the top list (sections 6.6, 6.7, 7.6, 7.7, 8.5) -/

/-- What a fold leaves of a register set. -/
structure FoldFace where
  active : Quantity
  lagging : Quantity
  leading : Quantity
  excessLagging : Quantity
  excessLeading : Quantity
  deriving DecidableEq

def foldFace (r : RegisterSet) : FoldFace :=
  ⟨r.active.value, r.lagging.value, r.leading.value, r.excessLagging.value,
    r.excessLeading.value⟩

/-- A channel's sealed parts. -/
def sealedAt (k : Fin 16) (t : Triple Quantity) (estimated : Bool) (s : State) : State :=
  s.setChannel k { s.channels[k] with sealedWindow := t, sealedEstimated := estimated }

/-- The negative of a number of varh, as a window entry holds it. -/
def minus (n : Nat) : Quantity := BitVec.ofInt 48 (-n)

/-- Boundary 1001. -/
theorem test_first_fold :
    let t := after .sweepVisit (sealedAt 0 ⟨500000, 300000, 0⟩ false
      (sealedAt 5 ⟨120000, 90000, 4000⟩ false (sweeping 2 (withAccount .active))))
    foldFace t.slots[2].registers[1] = ⟨380000, 210000, 0, 20000, 0⟩ ∧
    t.slots[2].registers[1].subintervals = 1 ∧
    t.slots[2].window = [⟨⟨380000, 210000, minus 4000⟩, false⟩] ∧
    t.slots[2].lastBoundary = 4211 ∧ t.sweep.nextSlot = 3 := by
  refine ⟨?_, ?_, ?_, ?_, ?_⟩ <;> decide +kernel

/-- The account before boundary 1003. -/
def twoEntries : Account :=
  { account 8800 netFeed .active with
    window := [⟨⟨380000, 210000, minus 4000⟩, false⟩, ⟨⟨450000, 360000, 5000⟩, false⟩] }

/-- Boundary 1003: the window is full and the demand is evaluated. -/
theorem test_first_demand :
    let t := after .sweepVisit (sealedAt 0 ⟨540000, 300000, 0⟩ false
      (sealedAt 5 ⟨100000, 80000, 0⟩ true (sweeping 2 (holding 2 twoEntries base))))
    t.slots[2].registers[1].peak =
      some ⟨5080000, 3160000, ⟨⟨31, 6, 2⟩, 14, 5, 0⟩, true, false⟩ ∧
    t.slots[2].topList = [⟨5080000, ⟨⟨31, 6, 2⟩, 14, 5, 0⟩, ⟨31, 6, 2⟩, true, false⟩] ∧
    t.slots[2].registers[1].estimatedCount = 1 ∧ t.attention.pendingSet = [] := by
  refine ⟨?_, ?_, ?_, ?_⟩ <;> decide +kernel

/-- Boundary 1004: a negative net. -/
theorem test_negative_net :
    let t := after .sweepVisit (sealedAt 0 ⟨60000, 30000, 0⟩ false
      (sealedAt 5 ⟨90000, 40000, 6000⟩ false (sweeping 2 (holding 2 twoEntries base))))
    t.slots[2].registers[1].active.value = 0 ∧ t.slots[2].negativeNet = true ∧
    t.attention.pendingSet = [⟨.negativeNet, 2⟩] := by
  refine ⟨?_, ?_, ?_⟩ <;> decide +kernel

/-- Section 6.7, Event 3: a command pulls the step forward. -/
theorem test_pull_forward :
    let t := after (.closePeriod 8800) (sweeping 1 (withAccount .active))
    t.slots[2].lastBoundary = 4211 ∧ t.slots[2].closePending = true ∧
    t.slots[2].registers[1].subintervals = 1 ∧ t.sweep.nextSlot = 1 := by
  refine ⟨?_, ?_, ?_, ?_⟩ <;> decide +kernel

/-- Section 6.7, Event 5: the finish takes the held marker. -/
theorem test_held_marker :
    let s := queued 0 (some 0) ((sweeping 31 base).setSweep
      ⟨true, 4210, ⟨⟨31, 6, 2⟩, 14, 5, 0⟩, .regular, 31, true⟩)
    let t := after .sweepVisit s
    t.sweep.running = true ∧ t.sweep.b = 4211 ∧ t.sweep.nextSlot = 0 ∧
    t.sweep.heldMarker = false ∧ t.queue.marker = none := by
  refine ⟨?_, ?_, ?_, ?_, ?_⟩ <;> decide +kernel

theorem test_top_list :
    ([demandOn 2 5080000, demandOn 2 5200000, demandOn 3 4900000, demandOn 3 4950000,
        demandOn 4 4950000, demandOn 5 5010000, demandOn 6 4950000].foldl
      (fun l e => offerTop 3 true e l) []) =
      [demandOn 2 5200000, demandOn 5 5010000, demandOn 3 4950000] := by decide +kernel

theorem test_top_list_any_day :
    ([demandOn 2 5080000, demandOn 2 5200000, demandOn 3 4900000].foldl
      (fun l e => offerTop 3 false e l) []) =
      [demandOn 2 5200000, demandOn 2 5080000, demandOn 3 4900000] := by decide +kernel

theorem test_day_of_midnight :
    dayOfDemand ⟨⟨31, 6, 4⟩, 0, 0, 0⟩ = ⟨31, 6, 3⟩ := by decide +kernel

/-- Slot 31 as the sweep's last, with a held marker and without. -/
theorem test_hyp_SweepVisitsTheNextSlot :
    ((sweeping 30 base).awake = true ∧ (sweeping 30 base).sweep.running = true ∧
      (sweeping 30 base).sweep.nextSlot = (30 : Fin 32).val) ∧
    ((sweeping 31 base).sweep.nextSlot = (31 : Fin 32).val ∧
      (sweeping 31 base).sweep.heldMarker = false) ∧
    (let s := queued 0 (some 0) (base.setSweep
        ⟨true, 4210, CalTime.origin, .regular, 31, true⟩);
      s.sweep.nextSlot = (31 : Fin 32).val ∧ s.sweep.heldMarker = true ∧
      s.queue.marker.isSome = true) := by decide +kernel

theorem test_hyp_BoundaryStepKeepsToItsAccount :
    disturbed.verified 2 = false ∧
    ((withAccount .opening).verified 2 = true ∧
      (withAccount .opening).slots[(2 : Fin 32)].state = .opening) ∧
    ((withAccount .suspended).verified 2 = true ∧
      (withAccount .suspended).slots[(2 : Fin 32)].resumePending = false ∧
      (withAccount .suspended).slots[(2 : Fin 32)].closePending = false ∧
      (withAccount .suspended).slots[(2 : Fin 32)].amendment = none) := by decide +kernel

/-- Slot 2 after stages 3 and 4. -/
def afterFour (s : State) : Account := afterStageFour (afterStageThree s s.slots[(2 : Fin 32)])

/-- An ACTIVE account with a close pending and an amendment committed AT_CLOSE. -/
def closing : State :=
  let s := sweeping 2 (amended .active (.committed .atClose))
  s.setSlot 2 { s.slots[(2 : Fin 32)] with closePending := true }

theorem test_hyp_BoundaryStepKeepsToItsAccount_stages :
    (let s := sweeping 2 (withAccount .retiring);
      s.verified 2 = true ∧ (afterFour s).state = .retiring ∧
      ∀ k : Fin 16, naming k ((afterFour s).contract.terms ++ []) ≤
        s.channels[k].referenceCount) ∧
    (let s := sweeping 2 (amended .active (.committed .atBoundary));
      s.verified 2 = true ∧ (afterFour s).state ≠ .retiring ∧
      (afterFour s).amendment = some ⟨.committed .atBoundary, image 8800 [⟨1, 1⟩]⟩) ∧
    (closing.verified 2 = true ∧ (afterFour closing).state ≠ .retiring ∧
      (afterFour closing).closePending = true ∧
      (afterFour closing).amendment = some ⟨.committed .atClose, image 8800 [⟨1, 1⟩]⟩) ∧
    (let s := sweeping 2 (pendingChange .suspended false true);
      s.verified 2 = true ∧ (afterFour s).state = .active ∧ (afterFour s).amendment = none) := by
  refine ⟨?_, ?_, ?_, ?_⟩ <;> decide +kernel

/-- Boundary 1004: the fold latches NEGATIVE_NET. -/
theorem test_hyp_BoundaryStepKeepsToItsAccount_fold :
    let s := sealedAt 0 ⟨60000, 30000, 0⟩ false
      (sealedAt 5 ⟨90000, 40000, 6000⟩ false (sweeping 2 (holding 2 twoEntries base)))
    s.verified 2 = true ∧ s.slots[(2 : Fin 32)].state = .active ∧
      .negativeNet ∈ (s.fold s.slots[(2 : Fin 32)]).2 := by
  refine ⟨?_, ?_, ?_⟩ <;> decide +kernel

theorem test_hyp_StageEightRecordsTheBoundary :
    (sweeping 2 (withAccount .active)).verified 2 = true := by decide +kernel

/-- A window of W entries and one of W − 1, at a regular boundary and at an irregular one. -/
theorem test_hyp_FoldAddsToTheCurrentPeriod :
    (∀ u ∈ twoEntries.contract.terms, u.channel.toNat < 16 ∧ (u.sign = 1 ∨ u.sign = 2)) ∧
    ((sweeping 2 base).sweep.kind = .regular ∧ 1 ≤ twoEntries.contract.windowLength.toNat ∧
      twoEntries.window.length ≤ twoEntries.contract.windowLength.toNat) ∧
    ((base.setSweep ⟨true, 4211, CalTime.origin, .irregular, 0, false⟩).sweep.kind =
      .irregular) := by decide +kernel

theorem test_hyp_DemandIsEvaluated :
    (let p : PeakRecord := ⟨5080000, 0, CalTime.origin, false, false⟩;
      let d : Demand := ⟨5080001, 0, CalTime.origin, false, false⟩;
      p.demand.toNat < d.demand.toNat ∧ p.demand.toNat ≤ p.demand.toNat) ∧
    (base.attributes 2 0).demandChargeable = false ∧
    (let l := [demandOn 2 5200000, demandOn 3 4900000];
      topDescends l = true ∧ l.length ≤ 2 ∧ l.length < 3 ∧
        (∀ x ∈ l, x.day ≠ (demandOn 4 1).day) ∧ (l.map TopEntry.day).Nodup) ∧
    (let l := [demandOn 2 5200000, demandOn 3 4900000];
      l.length = 2 ∧ l.getLast? = some (demandOn 3 4900000) ∧
        (demandOn 3 4900000).demand.toNat < (demandOn 4 4900001).demand.toNat ∧
        (demandOn 4 4900000).demand.toNat ≤ (demandOn 3 4900000).demand.toNat) ∧
    (let l := [demandOn 2 5200000, demandOn 3 4900000];
      demandOn 3 4900000 ∈ l ∧ (demandOn 3 4900000).day = (demandOn 3 4900001).day ∧
        (demandOn 3 4900000).demand.toNat < (demandOn 3 4900001).demand.toNat ∧
        (demandOn 2 5200000).day = (demandOn 2 5200000).day ∧
        (demandOn 2 5200000).demand.toNat ≤ (demandOn 2 5200000).demand.toNat) ∧
    (let s := sweeping 2 base;
      s.sweep.kind = .regular ∧ 1 ≤ twoEntries.contract.windowLength.toNat ∧
      twoEntries.window.length ≤ twoEntries.contract.windowLength.toNat ∧
      (s.fold twoEntries).1.window.length = twoEntries.contract.windowLength.toNat ∧
      (s.fold (account 8800 netFeed .active)).1.window.length <
        (account 8800 netFeed .active).contract.windowLength.toNat) := by
  decide +kernel

theorem test_hyp_BillingDemandIsTheGreatest :
    1 ≤ (1 : Byte).toNat ∧ (4 : Byte).toNat ≤ 4 ∧
    [demandOn 1 4, demandOn 2 3, demandOn 3 2, demandOn 4 1].length ≤ (4 : Byte).toNat := by
  decide +kernel

/-- Percent 50 and 100 with a candidate equal to the value and one below it; percent 0. -/
theorem test_hyp_CloseFreezesThePeriod :
    (let c := { image 1 netFeed with ratchetPercent := 100, ratchetPeriods := 12 };
      1 ≤ c.ratchetPeriods.toNat ∧ c.ratchetPeriods.toNat ≤ 12 ∧
      50 ≤ c.ratchetPercent.toNat ∧ c.ratchetPercent.toNat ≤ 100 ∧
      (7 : Word).toNat ≤ (7 : Word).toNat * c.ratchetPercent.toNat / 100) ∧
    (let c := { image 1 netFeed with ratchetPercent := 50, ratchetPeriods := 1 };
      50 ≤ c.ratchetPercent.toNat ∧
      (7 : Word).toNat * c.ratchetPercent.toNat / 100 < (4 : Word).toNat ∧ 1 ≤ 1) ∧
    ({ image 1 netFeed with ratchetPercent := 0 } : ContractImage).ratchetPercent.toNat = 0 := by
  decide +kernel

/-- A FAULTED contract out of range at each end: N, the percent and the periods. -/
theorem test_hyp_CloseFreezesThePeriod_faulted :
    ((0 : Byte).toNat = 0 ∧ 4 < (5 : Byte).toNat ∧ 1 ≤ (4 : Byte).toNat ∧ (4 : Byte).toNat ≤ 4) ∧
    ((49 : Byte).toNat < 50 ∧ 100 < (101 : Byte).toNat) ∧
    (let c := { image 1 netFeed with ratchetPercent := 100, ratchetPeriods := 13 };
      50 ≤ c.ratchetPercent.toNat ∧ c.ratchetPercent.toNat ≤ 100 ∧
      (7 : Word).toNat ≤ (7 : Word).toNat * c.ratchetPercent.toNat / 100 ∧
      (7 : Word).toNat * c.ratchetPercent.toNat / 100 < (8 : Word).toNat ∧
      12 < c.ratchetPeriods.toNat) := by decide +kernel

/-! ## Attention unit (section 9.9) and the front of the queue -/

/-- What stands at the front of the queue after a step. -/
structure Front where
  holdTime : Nat
  rest : List Instr
  deriving DecidableEq

def front (o : Host.Outcome State Fault Refusal) : Option Front :=
  match o with
  | .next t => some ⟨t.holdTime, t.pending⟩
  | .fault _ => none
  | .refused _ => none

/-- A pending set under a mask. -/
def pairs (l : List AttnPair) (mask : Half) (s : State) : State := s.setAttention ⟨l, mask⟩

/-- The pending set after Event 2. -/
def afterBreak : List AttnPair :=
  [⟨.linkBreak, 1⟩, ⟨.channelSilent, 4⟩, ⟨.channelSilent, 5⟩, ⟨.channelSilent, 6⟩]

theorem test_set_mask :
    said (.setAttentionMask 0xF7FF) (pairs afterBreak 0xFFFF base) =
      some ⟨.ok, [0xFF, 0xFF, 1]⟩ := by decide +kernel

theorem test_take_attention :
    said .takeAttention (pairs afterBreak 0xF7FF base) =
      some ⟨.ok, [0, 12, 1, 0, 0, 0, 0, 0, 3]⟩ ∧
    (after .takeAttention (pairs afterBreak 0xF7FF base)).attn = false := by decide +kernel

/-- Event 6: the pair of a slot comes with its account number. -/
theorem test_take_close_done :
    said .takeAttention (pairs [⟨.closeDone, 2⟩] 0xFFFF (withAccount .active)) =
      some ⟨.ok, [0, 5, 2, 0, 0, 0x22, 0x60, 0, 0]⟩ := by decide +kernel

theorem test_dismiss :
    said (.dismiss 0x0800 none) (pairs (afterBreak.drop 1) 0xF7FF base) =
      some ⟨.ok, [3, 0]⟩ ∧
    said (.dismiss 0x0800 (some 32)) base = some ⟨.badOperand, []⟩ := by decide +kernel

/-- Event 9. -/
theorem test_read_attention :
    said (.readAttention 11)
        (pairs [⟨.channelSilent, 6⟩, ⟨.channelResumed, 6⟩] 0xF7FF base) =
      some ⟨.ok, [0xF7, 0xFF] ++ [0, 0, 1, 0, 0, 0, 0, 0, 0, 0, 0, 1, 0, 0, 0, 0] ++
        [2] ++ [1, 6] ++ [1]⟩ := by decide +kernel

/-- Two half seconds make the internal second (log 3). -/
theorem test_half_seconds :
    let s := atTime 10 21 10 .internal
    s.tick.clock.phaseHalves = 1 ∧
    s.tick.tick.clock.time = ⟨⟨31, 3, 14⟩, 10, 21, 11⟩ ∧
    s.tick.tick.channels[6].timerHalves = 8 := by
  refine ⟨?_, ?_, ?_⟩ <;> decide +kernel

/-- R74: a hold that expires at a half second leaves the link's presence timers at their whole
time-out. -/
theorem test_expiry_reloads_in_full :
    let t := ((withLink 0 (flowLink .held none .idle (some 15)) base).setChannel 0
      { meter with timerMode := .frozen, timerHalves := 3 }).tick
    t.links[0].flow = .flowing ∧ t.channels[0].timerMode = .running ∧
    t.channels[0].timerHalves = 10 := by
  refine ⟨?_, ?_, ?_⟩ <;> decide +kernel

theorem test_step_front :
    front (step (base.withPending [.setHoldTime 9, .readSweep])) = some ⟨9, [.readSweep]⟩ := by
  decide +kernel

theorem test_no_word_spells_a_command : base.withFetchWord 16 0x0900 = base := by rfl

theorem test_hyp_TakingAndDismissing :
    (let s := pairs afterBreak 0xF7FF base;
      s.accepts .takeAttention = true ∧ s.attention.sound = true ∧
      (⟨.linkBreak, 1⟩ ∈ s.attention.pendingSet ∧ enabled s.attention.mask .linkBreak = true ∧
        ∀ q ∈ s.attention.pendingSet, enabled s.attention.mask q.kind = true →
          q.kind.rank < 12 ∨ (q.kind = .linkBreak ∧ 1 ≤ q.source))) ∧
    (let s := pairs (afterBreak.drop 1) 0xF7FF base;
      s.accepts .takeAttention = true ∧ s.attention.sound = true ∧
      ∀ p ∈ s.attention.pendingSet, enabled s.attention.mask p.kind = false) ∧
    (base.accepts (.dismiss 0 (some 32)) = true ∧ 31 < (32 : Byte).toNat) ∧
    (base.accepts (.dismiss 0 (some 31)) = true ∧ (31 : Byte).toNat ≤ 31) ∧
    base.accepts (.dismiss 0xFFFF none) = true := by decide +kernel

theorem test_hyp_MaskAndLines :
    base.accepts (.setAttentionMask 0) = true ∧ base.accepts (.readAttention 16) = true ∧
    15 < (16 : Byte).toNat ∧ base.accepts (.readAttention 15) = true ∧
    (15 : Byte).toNat = AttnKind.retentionLost.rank := by decide +kernel

/-- The empty queue in an awake part, under the held reset pin, and in an outage with each phase and with
retention lost. -/
theorem test_hyp_HalfSecondOnAnEmptyQueue :
    (base.pending = [] ∧ base.awake = true) ∧
    (pinHeld.pending = [] ∧ pinHeld.device.mainPower = true ∧ pinHeld.device.resetHeld = true) ∧
    ((switchedOff true).pending = [] ∧ (switchedOff true).device.mainPower = false ∧
      (switchedOff true).device.retentionValid = true ∧
      (switchedOff true).clock.phaseHalves = 0) ∧
    (let s := (switchedOff true).setClock { base.clock with phaseHalves := 1 };
      s.pending = [] ∧ s.device.mainPower = false ∧ s.device.retentionValid = true ∧
        s.clock.phaseHalves ≠ 0) ∧
    ((switchedOff false).pending = [] ∧ (switchedOff false).device.mainPower = false ∧
      (switchedOff false).device.retentionValid = false) := by decide +kernel

/-! ## Hypotheses of the invariants -/

/-- Two accounts and a sweep between them, with commands that wait. -/
def running : State :=
  (queued 3 (some 3) (sweeping 1
    (holding 0 { account 5100 [⟨1, 1⟩] .active with lastBoundary := 4211 }
      (withAccount .active)))).withPending [.sweepVisit, .takeFrameEntry]

/-- The hypotheses of the invariants hold together in a state that is not the reset state, and
its step answers a next state. -/
theorem test_hyp_QueueAndMarkerStaySound :
    running.queueSound = true ∧ completes (step running) = true := by decide +kernel

theorem test_hyp_PendingSetStaysASet :
    (pairs afterBreak 0xF7FF running).attention.sound = true ∧
    completes (step (pairs afterBreak 0xF7FF running)) = true := by decide +kernel

theorem test_hyp_ClockAndTariffStaySound :
    running.clock.sound = true ∧ running.tariffSound = true ∧ completes (step running) = true := by
  decide +kernel

theorem test_hyp_ChannelRecordsStaySound :
    (∀ k : Fin 16, running.channels[k].sound = true) ∧ completes (step running) = true := by
  decide +kernel

theorem test_hyp_LinksAndTimersStaySound :
    (∀ n : Fin 4, running.links[n].sound = true) ∧
    (∀ k : Fin 16, running.timerAgrees k = true) ∧ completes (step running) = true := by
  decide +kernel

theorem test_hyp_DirectoryStaysSound :
    running.directorySound = true ∧ running.directory = [⟨5100, 0⟩, ⟨8800, 2⟩] ∧
    completes (step running) = true := by decide +kernel

theorem test_hyp_AccountRecordsStaySound :
    running.directorySound = true ∧
    (∀ i : Fin 32, running.slots[i].vacantSound = true ∧ running.slots[i].pendingSound = true ∧
      running.slots[i].snapshotSound = true ∧ topDescends running.slots[i].topList = true) := by
  decide +kernel

theorem test_hyp_AccountsStayCurrent :
    running.directorySound = true ∧ running.boundariesSound = true ∧
    running.slots[2].lastBoundary = running.sweep.b - 1 ∧ completes (step running) = true := by
  decide +kernel

theorem test_hyp_ReferenceCountsStayExact :
    running.directorySound = true ∧ (∀ i : Fin 32, running.slots[i].vacantSound = true) ∧
    (∀ k : Fin 16, running.countAgrees k = true) ∧
    running.channels[0].referenceCount = 1 ∧
    ∀ i c code rest, running.pending ≠ .storageDisturbance i c code :: rest := by
  refine ⟨?_, ?_, ?_, ?_, ?_⟩
  · decide +kernel
  · decide +kernel
  · decide +kernel
  · decide +kernel
  · intro i c code rest h
    have hp : running.pending = [.sweepVisit, .takeFrameEntry] := rfl
    rw [hp] at h
    cases h

end Sys2Proof.Tests
end

/-!
PROOFS. READ HOLIDAYS (R46, R56): the executable order check of the holiday list is the pairwise
order of its dates, and the reply is the list's own bytes.
-/

namespace Sys2Proof.Machine

/-- R46: the check compares neighbours only; keys compare transitively, so every two dates are
in order. -/
theorem datesAscend_iff_pairwise (dates : List Date) :
    datesAscend dates = true ↔ dates.Pairwise (fun a b => a.key < b.key) := by
  have trans : IsTrans Date (fun a b => a.key < b.key) := ⟨fun _ _ _ => Nat.lt_trans⟩
  rw [← List.isChain_iff_pairwise]
  induction dates with
  | nil => simp [datesAscend]
  | cons a rest ih =>
    cases rest with
    | nil => simp [datesAscend]
    | cons b rest =>
      simp only [datesAscend, Bool.and_eq_true, decide_eq_true_eq, ih, List.isChain_cons_cons]

theorem holidaysSound_iff (dates : List Date) :
    holidaysSound dates = true ↔
      dates.length ≤ 24 ∧ (∀ d ∈ dates, d.valid = true) ∧
        dates.Pairwise (fun a b => a.key < b.key) := by
  simp only [holidaysSound, Bool.and_eq_true, decide_eq_true_eq, List.all_eq_true,
    datesAscend_iff_pairwise, and_assoc]

/-- R56: the act of READ HOLIDAYS leaves the state and answers the count and the dates. -/
theorem actReadHolidays_eq (s : State) :
    actReadHolidays s =
      (s, ⟨.ok, u8 s.tariff.holidays.length ::
        s.tariff.holidays.flatMap fun d => [u8 d.year, u8 d.month, u8 d.day]⟩) := rfl

theorem exec_readHolidays_of_accepts {s : State} (h : s.accepts .readHolidays = true) :
    exec .readHolidays s = .next (answer (actReadHolidays s)) :=
  congrArg Host.Outcome.next (State.request_of_accepts h)

/-- Settles O19: the stored form gives the count's bound and the order, and the act gives the
reply. -/
theorem readHolidaysReportsTheList : Obligations.ReadHolidaysReportsTheList := by
  intro s haccepts hsound
  obtain ⟨hcount, -, hascend⟩ := (holidaysSound_iff _).1 hsound
  refine ⟨hcount, hascend, ?_⟩
  rw [exec_readHolidays_of_accepts haccepts, actReadHolidays_eq]

end Sys2Proof.Machine

/-!
PROOFS. Stage 8 of the boundary step (R124): an account whose last boundary applied is b is passed by
the visit (R107) and pulled forward by no command (R109).
-/

namespace Sys2Proof.Machine

/-- R124: an account that passed verification leaves its step with b recorded. -/
theorem State.boundaryStep_lastBoundary {i : Fin 32} {s : State} (h : s.verified i = true) :
    (s.boundaryStep i).slots[i].lastBoundary = s.sweep.b := by
  rw [State.boundaryStep_slot, if_pos rfl, State.stepped, if_pos h,
    State.accountStep_lastBoundary]

/-- R107: the visit passes an account that has b applied. -/
theorem State.visitSlot_of_applied {i : Fin 32} {s : State}
    (h : s.slots[i].lastBoundary = s.sweep.b) : s.visitSlot i = s := by
  rcases State.visitSlot_cases i s with ⟨hpass, -⟩ | ⟨-, -, hbehind⟩
  · exact hpass
  · exact absurd h hbehind

/-- R109: an account that has b applied is not one behind, since b and b - 1 differ as words. -/
theorem State.oneBehind_of_applied {i : Fin 32} {s : State}
    (h : s.slots[i].lastBoundary = s.sweep.b) : s.oneBehind i = false := by
  have hne : s.sweep.b ≠ s.sweep.b - 1 := by bv_omega
  simp only [State.oneBehind, h, decide_eq_false hne, Bool.and_false]

/-- Settles O43: the step leaves the sweep's b in place, so the boundary it recorded is the one that
the visit and the pull-forward compare with. -/
theorem stageEightRecordsTheBoundary : Obligations.StageEightRecordsTheBoundary := by
  intro i s hverified
  have hrecorded : (s.boundaryStep i).slots[i].lastBoundary = s.sweep.b :=
    State.boundaryStep_lastBoundary hverified
  have happlied : (s.boundaryStep i).slots[i].lastBoundary = (s.boundaryStep i).sweep.b := by
    rw [State.boundaryStep_sweep, hrecorded]
  exact ⟨hrecorded, State.visitSlot_of_applied happlied, State.oneBehind_of_applied happlied⟩

end Sys2Proof.Machine

/-!
PROOFS. Billing demand (R137, R138): the average of a top list within its N is the exact quotient
and fits a word, and billing demand is the maximum of its three values.
-/

namespace Sys2Proof.Machine

/-- R137: the quotient is exact where the divisor is positive and the quotient fits 32 bits. -/
theorem averageOver_toNat {sum divisor : Nat} (hpos : 0 < divisor)
    (hfits : sum / divisor < 2 ^ 32) : (averageOver sum divisor).toNat = sum / divisor := by
  rw [averageOver, if_neg (by omega), BitVec.toNat_ofNat, Nat.mod_eq_of_lt hfits]

@[simp] theorem topListAverage_nil (faulted : Bool) (n : Byte) :
    topListAverage faulted n [] = 0 := rfl

/-- R137: at most `n` words cannot sum to `n` times 2 ^ 32, so their average fits a word. -/
theorem demandSum_div_lt {n : Nat} {l : List TopEntry} (hpos : 0 < n) (hlen : l.length ≤ n) :
    (l.map fun e => e.demand.toNat).sum / n < 2 ^ 32 := by
  have hsum : (l.map fun e => e.demand.toNat).sum ≤ l.length * (2 ^ 32 - 1) := by
    simpa using List.sum_le_card_nsmul (l.map fun e => e.demand.toNat) (2 ^ 32 - 1)
      (List.forall_mem_map.2 fun e _ => Nat.le_sub_one_of_lt e.demand.isLt)
  have hbound : l.length * (2 ^ 32 - 1) ≤ n * (2 ^ 32 - 1) := Nat.mul_le_mul_right _ hlen
  rw [Nat.div_lt_iff_lt_mul hpos]
  omega

/-- R137: the average of a list within its N, the empty list included. -/
theorem topListAverage_toNat {n : Byte} {l : List TopEntry} (hpos : 0 < n.toNat)
    (hlen : l.length ≤ n.toNat) :
    (topListAverage false n l).toNat = (l.map fun e => e.demand.toNat).sum / n.toNat := by
  cases l with
  | nil => simp
  | cons e rest => exact averageOver_toNat hpos (demandSum_div_lt hpos hlen)

theorem maxWord_toNat (a b : Word) : (maxWord a b).toNat = max a.toNat b.toNat := by
  rw [maxWord]
  split
  next hlt => rw [Nat.max_eq_right hlt.le]
  next hge => rw [Nat.max_eq_left (Nat.le_of_not_lt hge)]

/-- R138: billing demand, read as numbers. -/
theorem billingDemand_toNat (average ratchet minimum : Word) :
    (billingDemand average ratchet minimum).toNat =
      max (max average.toNat ratchet.toNat) minimum.toNat := by
  rw [billingDemand, maxWord_toNat, maxWord_toNat]

/-- R145, R146: a close stores the snapshot of the record as it stands before the close. -/
theorem closed_snapshot (faulted final : Bool) (time : CalTime) (a : Account) :
    (closed faulted final time a).snapshot = some (snapshotOf faulted final time a) := rfl

/-- Settles O46: the average and the greatest of three by their values as numbers, and the stored
figures by the snapshot that a close makes. -/
theorem billingDemandIsTheGreatest : Obligations.BillingDemandIsTheGreatest := by
  refine ⟨fun n l hpos _ hlen => ⟨topListAverage_toNat hpos hlen, ?_⟩, billingDemand_toNat,
    fun faulted final time a => ⟨_, closed_snapshot faulted final time a, rfl, rfl, rfl⟩⟩
  rintro rfl
  exact topListAverage_nil false n

end Sys2Proof.Machine

/-!
PROOFS. What a step can do. Every command, and the half second of an empty queue, is a sequence of
acts from one list (`Act`), each with the guard under which the model makes it. An invariant of the
part is then shown once per act, and not once per command.
-/

namespace Sys2Proof.Machine

/-! ## What an act keeps of a channel and of an account -/

/-- What an act on a channel keeps, the link FLOWING or not: a sound record, the timer's agreement with
the link, the reference count, and the registration of a channel that is counted. -/
structure ChannelKept (flowing : Bool) (c d : Channel) : Prop where
  sound : c.sound = true → d.sound = true
  timer : d.state ≠ .unregistered →
    (d.timerMode = .frozen ↔ flowing = false) ∨
      (c.state ≠ .unregistered ∧ (d.timerMode = .frozen ↔ c.timerMode = .frozen))
  count : d.referenceCount = c.referenceCount ∨ (c.state = .unregistered ∧ d.referenceCount = 0)
  registration : d.state = .unregistered → c.state = .unregistered ∨ c.referenceCount = 0

/-- What a command on an account keeps of its record. -/
structure SlotKept (a b : Account) : Prop where
  occupied : b.state ≠ .vacant
  kept : a.Kept → b.Kept
  swept : b.state.swept = true → a.state.swept = true
  lastBoundary : b.lastBoundary = a.lastBoundary

/-- The directory has an entry for the slot. -/
def State.Listed (i : Fin 32) (s : State) : Prop := ∃ e ∈ s.directory, e.slot = i

theorem State.listed_of_lookup {account : Word} {i : Fin 32} {s : State}
    (h : s.lookup account = some i) : s.Listed i := ⟨_, s.lookup_some h, rfl⟩

/-! ## The acts -/

/-- The acts of the part, each with the guard under which it is made. -/
inductive Act : State → State → Prop
  | pending (s x) : Act s (s.setPending x)
  | port (s x) : Act s (s.setPort x)
  | device (s x) (h : (s.setDevice x).awake = s.awake) : Act s (s.setDevice x)
  | holdTime (s x) : Act s (s.setHoldTime x)
  | attention (s f mask) : Act s (s.setAttention ⟨s.attention.pendingSet.filter f, mask⟩)
  | latch (s k n) (h : n < k.sources) : Act s (s.latch k n)
  | clock (s x) (hm : x.markerWaiting = s.clock.markerWaiting)
      (hl : x.subinterval = s.clock.subinterval)
      (hs : s.clock.sound = true → x.sound = true) : Act s (s.setClock x)
  | subinterval (s n) (hn : n ∈ Config.subintervalLengths) (hf : s.schedulesFit n = true) :
      Act s (s.setClock { s.clock with subinterval := n })
  | boundary (s kind) : Act s (s.makeBoundary s.clock.time kind)
  | schedule (s slot body k p) (h : checkSchedule s.clock.subinterval slot body = .schedule k p) :
      Act s (s.loadSchedule k p)
  | holidays (s count body dates) (h : checkHolidays count body = some dates) :
      Act s (s.setTariff { s.tariff with holidays := dates })
  | link (s n l) (h : s.links[n].sound = true → l.sound = true) : Act s (s.changeLink n l)
  | links (s f) (h : ∀ l : Link, l.sound = true → (f l).sound = true) : Act s (s.eachLink f)
  | offer (s e) : Act s (s.offerFrame e)
  | remove (s e rest) (he : s.queue.entries = e :: rest) (ha : s.markerAtHead = false) :
      Act s (s.removeHead rest)
  | channel (s k d) (h : ChannelKept (s.flowing (linkOf k)) s.channels[k] d) :
      Act s (s.setChannel k d)
  | engineClear (s) (h : s.sweep.running = false) :
      Act s (s.engineClear.setSweep { s.sweep with nextSlot := 32, heldMarker := false })
  | restart (s d) : Act s ((s.clearWorking.setDevice d).resetChannels channelAfterRestart)
  | sleep (s d) (h : (s.setDevice d).awake = false) : Act s (s.setDevice d).dropWorking
  | lost (s) : Act s s.startLost
  | start (s m) (h : s.sweep.running = false) : Act s (s.startSweep m)
  | visited (s) (i : Fin 32) (hi : i.val < 31) (hn : s.sweep.nextSlot = i.val)
      (hr : s.sweep.running = true)
      (hv : s.slots[i].state.swept = true → s.slots[i].lastBoundary = s.sweep.b) :
      Act s (s.setSweep { s.sweep with nextSlot := i.val + 1 })
  | finished (s) (i : Fin 32) (hi : i.val = 31) (hn : s.sweep.nextSlot = i.val)
      (hr : s.sweep.running = true)
      (hv : s.slots[i].state.swept = true → s.slots[i].lastBoundary = s.sweep.b) :
      Act s (s.setSweep { s.sweep with running := false, nextSlot := 32, heldMarker := false })
  | step (s i) (h : s.slots[i].state.swept = true) : Act s (s.boundaryStep i)
  | fault (s i) (h : s.slots[i].state.swept = true) : Act s (s.enterFaulted i)
  | slot (s i b) (hl : s.Listed i)
      (h : s.slots[i].state ≠ .vacant →
        SlotKept s.slots[i] b ∧ b.countedTerms = s.slots[i].countedTerms) :
      Act s (s.setSlot i b)
  | stage (s i image) (hl : s.Listed i) (hb : stagingBarred s.slots[i] = false)
      (hc : s.contractCheck image = none) : Act s (s.storeAmendment i image)
  | withdraw (s i m) (hl : s.Listed i) (ha : s.slots[i].amendment = some m) :
      Act s ((s.releaseTerms m.contract.terms).setSlot i { s.slots[i] with amendment := none })
  | repair (s i c) (hl : s.Listed i) (hs : stagedContract s.slots[i] = some c)
      (hf : s.slots[i].state = .faulted) : Act s (s.repair i c)
  | closeFaulted (s i) (hl : s.Listed i) (hf : s.slots[i].state = .faulted) :
      Act s (s.closeFaulted i)
  | vacate (s i) (hl : s.Listed i) : Act s (s.vacate i)
  | openIn (s i image) (hc : s.contractCheck image = none)
      (hn : s.lookup image.account = none) (hv : s.lowestVacant = some i) :
      Act s (s.openIn i image)

/-- One act after another. -/
abbrev Acts : State → State → Prop := Relation.ReflTransGen Act

theorem Act.acts {s t : State} (h : Act s t) : Acts s t := Relation.ReflTransGen.single h

/-- What every act keeps, a sequence of acts keeps. -/
theorem Acts.keep {P : State → Prop} (hP : ∀ s t, Act s t → P s → P t) {s t : State}
    (h : Acts s t) (hs : P s) : P t := by
  induction h with
  | refl => exact hs
  | tail _ hact ih => exact hP _ _ hact ih

theorem Acts.ite {p : Prop} [Decidable p] {s t u : State} (ht : p → Acts s t) (hu : ¬p → Acts s u) :
    Acts s (if p then t else u) := by
  split
  · next h => exact ht h
  · next h => exact hu h

/-- A command whose guard fails is no event. -/
theorem Acts.when {p : Prop} [Decidable p] {s t : State} (h : p → Acts s t) :
    Acts s (if p then t else s) := Acts.ite h fun _ => .refl

theorem State.latchAll_acts {ks : List AttnKind} {n : Nat} {s : State}
    (h : ∀ k ∈ ks, n < k.sources) : Acts s (s.latchAll ks n) := by
  induction ks generalizing s with
  | nil => exact .refl
  | cons k ks ih =>
    rw [State.latchAll_cons]
    exact (Act.latch s k n (h k (by simp))).acts.trans (ih fun j hj => h j (by simp [hj]))

theorem Acts.foldl {α : Type} {f : State → α → State} (h : ∀ s a, Acts s (f s a)) (l : List α)
    (s : State) : Acts s (l.foldl f s) := by
  induction l generalizing s with
  | nil => exact .refl
  | cons a l ih => exact (h s a).trans (ih _)

end Sys2Proof.Machine

/-!
PROOFS. The channel unit, the links, the clock and the sweep as sequences of acts.
-/

namespace Sys2Proof.Machine

/-! ## Channels -/

/-- A change that leaves state, timer and reference count is left to its soundness. -/
theorem ChannelKept.of_same {flowing : Bool} {c d : Channel} (hs : c.sound = true → d.sound = true)
    (hst : d.state = c.state) (hm : d.timerMode = c.timerMode)
    (hr : d.referenceCount = c.referenceCount) : ChannelKept flowing c d where
  sound := hs
  timer hu := .inr ⟨hst ▸ hu, by rw [hm]⟩
  count := .inl hr
  registration h := .inl (hst ▸ h)

/-- A registered channel whose timer has been reloaded agrees with its link. -/
theorem reloadTimer_frozen {flowing : Bool} {c : Channel} (h : c.state ≠ .unregistered) :
    (reloadTimer flowing c).timerMode = .frozen ↔ flowing = false := by
  rw [reloadTimer, if_neg h]
  cases flowing <;> simp

theorem reloadTimer_referenceCount (flowing : Bool) (c : Channel) :
    (reloadTimer flowing c).referenceCount = c.referenceCount := by
  rw [reloadTimer]; split <;> rfl

/-- A resumed channel keeps its reference count. -/
theorem resume_referenceCount (d : Triple Nat) (c : Channel) :
    (resume d c).1.referenceCount = c.referenceCount := by
  rw [resume]
  split
  · rfl
  · split <;> rfl

/-- What the judgement of a sequence leaves of a record: the timer, the count, and the state unless
the channel becomes LIVE. -/
structure TimerAndCountKept (c d : Channel) : Prop where
  timer : d.timerMode = c.timerMode
  count : d.referenceCount = c.referenceCount
  state : d.state = c.state ∨ d.state = .live

theorem resume_keeps (d : Triple Nat) (c : Channel) : TimerAndCountKept c (resume d c).1 where
  timer := (resume_live d c).2.2.2.2.1
  count := resume_referenceCount d c
  state := .inr (resume_live d c).1

theorem TimerAndCountKept.trans {c d e : Channel} (h : TimerAndCountKept c d)
    (h' : TimerAndCountKept d e) : TimerAndCountKept c e where
  timer := h'.timer.trans h.timer
  count := h'.count.trans h.count
  state := by
    rcases h'.state with h1 | h1
    · rw [h1]; exact h.state
    · exact .inr h1

theorem placeIncrements_keeps (d : Triple Nat) (c : Channel) :
    TimerAndCountKept c (placeIncrements d c).1 := by
  rw [placeIncrements]
  split
  · exact resume_keeps d c
  · exact ⟨rfl, rfl, .inl rfl⟩

theorem rebaseline_keeps (second : Word) (e : FrameEntry) (c : Channel) :
    TimerAndCountKept c (rebaseline second e c).1 := by
  rw [rebaseline]
  split
  · exact TimerAndCountKept.trans (d := recordFrame second e { c with openEstimated := true })
      ⟨rfl, rfl, .inl rfl⟩ (resume_keeps _ _)
  · exact ⟨rfl, rfl, .inl rfl⟩

theorem judgeSequence_keeps (second : Word) (e : FrameEntry) (c : Channel) :
    TimerAndCountKept c (judgeSequence second e c).1 := by
  rw [judgeSequence]
  split
  · exact ⟨rfl, rfl, .inl rfl⟩
  · split
    · rw [implausibleFrame]
      split
      · exact ⟨rfl, rfl, .inl rfl⟩
      · exact rebaseline_keeps second e c
    · exact TimerAndCountKept.trans
        (d := recordFrame second e { c with openEstimated := c.openEstimated || e.estimatedAtSource })
        ⟨rfl, rfl, .inl rfl⟩ (placeIncrements_keeps _ _)

/-- R81: the record a judged frame leaves is as its own, or comes of a registered channel whose timer
was reloaded on a FLOWING link. -/
theorem judgeFrame_keeps (flowing : Bool) (second : Word) (e : FrameEntry) (c : Channel) :
    (judgeFrame flowing second e c).1 = c ∨
      (c.state ≠ .unregistered ∧
        TimerAndCountKept (if flowing then reloadTimer true c else c)
          (judgeFrame flowing second e c).1) := by
  rw [judgeFrame]
  split
  · exact .inl rfl
  · next hu =>
    split
    · exact .inl rfl
    · refine .inr ⟨hu, ?_⟩
      by_cases ha : c.state = .awaiting
      · rw [if_pos ha]
        exact ⟨rfl, rfl, .inr rfl⟩
      · rw [if_neg ha]
        exact judgeSequence_keeps second e _

theorem judgeFrame_channelKept (flowing : Bool) (second : Word) (e : FrameEntry) (c : Channel) :
    ChannelKept flowing c (judgeFrame flowing second e c).1 := by
  have hsound : c.sound = true → (judgeFrame flowing second e c).1.sound = true := judgeFrame_sound
  rcases judgeFrame_keeps flowing second e c with hsame | ⟨hu, hk⟩
  · exact ChannelKept.of_same hsound (by rw [hsame]) (by rw [hsame]) (by rw [hsame])
  · have hst : (if flowing then reloadTimer true c else c).state = c.state := by
      split
      · exact reloadTimer_state _ _
      · rfl
    refine ⟨hsound, fun _ => ?_, .inl ?_, fun h => ?_⟩
    · rw [hk.timer]
      cases flowing
      · exact .inr ⟨hu, Iff.rfl⟩
      · exact .inl (reloadTimer_frozen hu)
    · rw [hk.count]
      split
      · exact reloadTimer_referenceCount _ _
      · rfl
    · rcases hk.state with h1 | h1
      · exact .inl (hst ▸ h1 ▸ h)
      · rw [h] at h1; cases h1

theorem State.takeFrame_acts (e : FrameEntry) (s : State) : Acts s (s.takeFrame e) := by
  have hlink : linkOf e.channel = e.link := linkOf_channelAt _ _
  have hkept := judgeFrame_channelKept (s.flowing e.link) s.clock.monotonic e s.channels[e.channel]
  rw [State.takeFrame]
  refine (Act.channel s e.channel _ (hlink ▸ hkept)).acts.trans (State.latchAll_acts fun k hk => ?_)
  exact AttnKind.ofChannel_sources (judgeFrame_kinds _ _ _ _ k hk) _

theorem silenced_channelKept {flowing : Bool} {c : Channel} (h : c.state = .live) :
    ChannelKept flowing c (silenced c) where
  sound := silenced_sound h
  timer _ := .inr ⟨by simp [h], Iff.rfl⟩
  count := .inl rfl
  registration hu := by cases hu

theorem State.silence_acts (k : Fin 16) (s : State) : Acts s (s.silence k) :=
  Acts.when fun h => (Act.channel s k _ (silenced_channelKept h)).acts.trans
    (Act.latch _ .channelSilent k k.isLt).acts

theorem State.silenceLink_acts (n : Fin 4) (s : State) : Acts s (s.silenceLink n) :=
  Acts.foldl (fun t sub => State.silence_acts (channelAt n sub) t) _ s

/-- What a sound record is apart from its state: the limits of the timer. -/
theorem Channel.timerSound_of_sound {c : Channel} (h : c.sound = true) : c.timerSound = true := by
  simp only [Channel.sound, Bool.and_eq_true] at h
  exact h.1.2

/-- A record that differs from a sound one in a timer within its limit is sound. -/
theorem Channel.sound_setTimer {c : Channel} {m : TimerMode} {n : Nat} (h : c.sound = true)
    (hu : c.state = .unregistered → m = .stopped ∧ n = 0) (hn : n ≤ 120) :
    Channel.sound { c with timerMode := m, timerHalves := n } = true := by
  simp only [Channel.sound, Channel.creditSound, Channel.presenceSound, Channel.timerSound,
    Bool.and_eq_true, Bool.or_eq_true, decide_eq_true_eq] at h ⊢
  obtain ⟨⟨hcredit, ⟨⟨⟨-, h1⟩, h2⟩, -⟩, h4⟩, hpresence⟩ := h
  refine ⟨⟨hcredit, ⟨⟨⟨?_, h1⟩, h2⟩, hn⟩, h4⟩, hpresence⟩
  by_cases hs : c.state = .unregistered
  · exact .inr (hu hs)
  · exact .inl hs

theorem Channel.timerHalves_le {c : Channel} (h : c.sound = true) : c.timerHalves ≤ 120 := by
  have := Channel.timerSound_of_sound h
  simp only [Channel.timerSound, Bool.and_eq_true, decide_eq_true_eq] at this
  exact this.1.2

/-- R80: in UNREGISTERED no timer runs. -/
theorem Channel.registered_of_running {c : Channel} (h : c.sound = true)
    (hr : c.timerMode = .running) : c.state ≠ .unregistered := by
  intro hu
  rw [Channel.sound_unregistered hu, hr] at h
  exact absurd h.2.1 (by decide)

/-- R80: the record of a running timer that stops. -/
theorem stopped_channelKept {flowing : Bool} {c : Channel} (hr : c.timerMode = .running) :
    ChannelKept flowing c { c with timerMode := .stopped, timerHalves := 0 } where
  sound h := Channel.sound_setTimer h (fun _ => ⟨rfl, rfl⟩) (by omega)
  timer hu := .inr ⟨hu, by simp [hr]⟩
  count := .inl rfl
  registration := .inl

theorem State.expirePresence_acts {k : Fin 16} {s : State}
    (h : s.channels[k].timerMode = .running) : Acts s (s.expirePresence k) :=
  (Act.channel s k _ (stopped_channelKept h)).acts.trans (State.silence_acts k _)

/-- R80: the record of a timer that counts down. -/
theorem countedDown_channelKept {flowing : Bool} {c : Channel} (hr : c.timerMode = .running) :
    ChannelKept flowing c { c with timerHalves := c.timerHalves - 1 } :=
  ChannelKept.of_same
    (fun h => Channel.sound_setTimer (m := c.timerMode) h
      (fun hu => absurd hu (Channel.registered_of_running h hr))
      ((Nat.sub_le _ _).trans (Channel.timerHalves_le h)))
    rfl rfl rfl

theorem State.tickPresence_acts (k : Fin 16) (s : State) : Acts s (s.tickPresence k) :=
  Acts.when fun hr => Acts.ite (fun _ => State.expirePresence_acts hr)
    fun _ => (Act.channel s k _ (countedDown_channelKept hr)).acts

/-- R98: a new registration of an UNREGISTERED channel, before its timer is reloaded. -/
theorem newRegistration_sound {identity : Quantity} {rated : Word} {c : Channel}
    (h : c.sound = true) : (newRegistration identity rated c).sound = true := by
  rw [Channel.sound_awaiting rfl]
  exact ⟨rfl, (by decide : 2 ≤ Config.defaultTimeout), (by decide : Config.defaultTimeout ≤ 60),
    (Channel.timerHalves_le h : c.timerHalves ≤ 120), Nat.zero_le 2, rfl, rfl, rfl, rfl, rfl⟩

/-- R99: a meter replacement, before its timer is reloaded. -/
theorem replacement_sound {identity : Quantity} {rated : Word} {c : Channel}
    (h : c.sound = true) : (replacement identity rated c).sound = true := by
  have ht := Channel.timerSound_of_sound h
  simp only [Channel.timerSound, Bool.and_eq_true, decide_eq_true_eq] at ht
  obtain ⟨⟨⟨⟨-, h1⟩, h2⟩, h3⟩, -⟩ := ht
  rw [Channel.sound_awaiting rfl]
  exact ⟨rfl, h1, h2, h3, Nat.zero_le 2, rfl, rfl, rfl, rfl, rfl⟩

theorem registered_channelKept (flowing : Bool) (identity : Quantity) (rated : Word) (c : Channel) :
    ChannelKept flowing c (registered flowing identity rated c) := by
  rw [registered]
  split
  · next hu =>
    refine ⟨fun h => reloadTimer_sound (newRegistration_sound h),
      fun _ => .inl (reloadTimer_frozen (by simp [newRegistration])), .inr ⟨hu, ?_⟩,
      fun _ => .inl hu⟩
    rw [reloadTimer_referenceCount]; rfl
  · refine ⟨fun h => reloadTimer_sound (replacement_sound h),
      fun _ => .inl (reloadTimer_frozen (by simp [replacement])), .inl ?_, fun h => ?_⟩
    · rw [reloadTimer_referenceCount]; rfl
    · rw [reloadTimer_state] at h; cases h

/-- R100: a released channel counted no terms. -/
theorem released_channelKept {flowing : Bool} {c : Channel} (h : c.referenceCount = 0) :
    ChannelKept flowing c (released c) where
  sound _ := by
    rw [Channel.sound_unregistered rfl]
    exact ⟨rfl, rfl, rfl, (by decide : 2 ≤ Config.defaultTimeout),
      (by decide : Config.defaultTimeout ≤ 60), Nat.zero_le 2, rfl, rfl, rfl, rfl⟩
  timer hu := absurd rfl hu
  count := .inl rfl
  registration _ := .inr h

theorem withPolicy_sound {flowing : Bool} {p : Policy} {n : Nat} {rated : Word} {c : Channel}
    (h1 : 2 ≤ n) (h2 : n ≤ 60) (h : c.sound = true) :
    (withPolicy flowing p n rated c).sound = true := by
  refine reloadTimer_sound ?_
  simp only [Channel.sound, Channel.creditSound, Channel.presenceSound, Channel.timerSound,
    Bool.and_eq_true, Bool.or_eq_true, decide_eq_true_eq] at h ⊢
  obtain ⟨⟨hcredit, ⟨⟨⟨ht, -⟩, -⟩, h3⟩, h4⟩, hpresence⟩ := h
  refine ⟨⟨?_, ⟨⟨⟨ht, h1⟩, h2⟩, h3⟩, h4⟩, ?_⟩
  · rcases hcredit with hc | ⟨hs, hp⟩
    · left
      split
      · rfl
      · exact hc
    · cases p
      · exact .inr ⟨hs, rfl⟩
      · exact .inl (by simp [hp])
  · cases hs : c.state <;> simp_all

theorem withPolicy_channelKept {flowing : Bool} {p : Policy} {n : Nat} {rated : Word} {c : Channel}
    (h1 : 2 ≤ n) (h2 : n ≤ 60) : ChannelKept flowing c (withPolicy flowing p n rated c) where
  sound := withPolicy_sound h1 h2
  timer hu := .inl (reloadTimer_frozen fun h => hu (by
    rw [withPolicy, reloadTimer_state]; exact h))
  count := .inl (by rw [withPolicy, reloadTimer_referenceCount])
  registration h := .inl (by rw [withPolicy, reloadTimer_state] at h; exact h)

end Sys2Proof.Machine

/-!
PROOFS. The links, the clock, power and the sweep as sequences of acts.
-/

namespace Sys2Proof.Machine

/-! ## Reception (R59 to R62) -/

/-- A change of the receiver and the marks alone leaves the rest of a record's soundness. -/
theorem Link.sound_of_receiver {l m : Link} (h : l.sound = true) (hr : m.receiverSound = true)
    (hf : m.flow = l.flow) (hc : m.waitingControl = l.waitingControl)
    (hw : m.waitingTime = l.waitingTime) (ht : m.transmitter = l.transmitter)
    (hh : m.holdTimer = l.holdTimer) : m.sound = true := by
  simp only [Link.sound, Link.flowSound, Link.transmitterSound, Link.holdUnderWay,
    Link.releaseUnderWay, Bool.and_eq_true, hf, hc, hw, ht, hh] at h ⊢
  exact ⟨⟨hr, h.1.2⟩, h.2⟩

theorem Link.receiverSound_of_sound {l : Link} (h : l.sound = true) : l.receiverSound = true := by
  simp only [Link.sound, Bool.and_eq_true] at h
  exact h.1.1

/-- R58: a receiver that collects nothing. -/
theorem Link.receiverSound_empty {l : Link} (hr : l.receive ≠ .collecting) (hc : l.collected = [])
    (he : l.charError = false) : l.receiverSound = true := by
  simp [Link.receiverSound, hr, hc, he]

/-- R58: a receiver that collects. -/
theorem Link.receiverSound_collecting {l : Link} (hr : l.receive = .collecting)
    (h1 : 1 ≤ l.collected.length) (h2 : l.collected.length < 25) : l.receiverSound = true := by
  simp [Link.receiverSound, hr, h1, h2, Config.frameLength]

theorem State.goodFrame_acts (n : Fin 4) (e : FrameEntry) (s : State) :
    Acts s (s.goodFrame n e) := by
  have hnormal : Acts s (s.changeLink n { s.links[n] with breakState := .normal }) :=
    Act.acts (Act.link s n _ fun h => Link.sound_of_receiver h (Link.receiverSound_of_sound h)
      rfl rfl rfl rfl rfl)
  exact hnormal.tail (Act.offer _ e)

theorem State.discardFrame_acts (n : Fin 4) (s : State) : Acts s (s.discardFrame n) := by
  have hmark : Acts s (s.changeLink n { s.links[n] with errorMark := true }) :=
    Act.acts (Act.link s n _ fun h => Link.sound_of_receiver h (Link.receiverSound_of_sound h)
      rfl rfl rfl rfl rfl)
  exact hmark.tail (Act.latch _ .linkError n n.isLt)

theorem State.endFrame_acts (n : Fin 4) (x : List Byte) (b : Bool) (s : State) :
    Acts s (s.endFrame n x b) := by
  have hempty : Acts s (s.changeLink n
      { s.links[n] with receive := .waiting, collected := [], charError := false }) :=
    Act.acts (Act.link s n _ fun h => Link.sound_of_receiver h
      (Link.receiverSound_empty (by simp) rfl rfl) rfl rfl rfl rfl rfl)
  cases hcheck : checkFrame n x b with
  | some e =>
    rw [State.endFrame_good s hcheck]
    exact hempty.trans (State.goodFrame_acts n e _)
  | none =>
    rw [State.endFrame_bad s hcheck]
    exact hempty.trans (State.discardFrame_acts n _)

theorem State.addCharacter_acts {n : Fin 4} (char : Byte) (good : Bool) {s : State}
    (hr : s.links[n].receive = .collecting) : Acts s (s.addCharacter n char good) := by
  refine Acts.ite (fun _ => State.endFrame_acts _ _ _ s) fun hne => (Act.link s n _ fun h => ?_).acts
  have hlength : s.links[n].collected.length < 25 := by
    have := Link.receiverSound_of_sound h
    simp only [Link.receiverSound, hr, if_true, Bool.and_eq_true, decide_eq_true_eq] at this
    exact this.2
  have hne25 : s.links[n].collected.length + 1 ≠ 25 := by
    simpa [Config.frameLength] using hne
  refine Link.sound_of_receiver h (Link.receiverSound_collecting hr ?_ ?_) rfl rfl rfl rfl rfl
  · simp
  · simp only [List.length_append, List.length_cons, List.length_nil]; omega

theorem State.receiveCharacter_acts (n : Fin 4) (char : Byte) (good : Bool) (s : State) :
    Acts s (s.receiveCharacter n char good) := by
  rw [State.receiveCharacter]
  split
  · exact Acts.when fun _ => Act.acts (Act.link s n _ fun h => Link.sound_of_receiver h
      (Link.receiverSound_collecting rfl (by simp) (by simp)) rfl rfl rfl rfl rfl)
  · next hr => exact State.addCharacter_acts char good hr
  · exact .refl

theorem State.receiveCharacters_acts (n : Fin 4) (chars : List LineChar) (s : State) :
    Acts s (s.receiveCharacters n chars) :=
  State.receiveCharacters_induction (P := Acts s) n
    (fun t c h => h.trans (State.receiveCharacter_acts n c.char c.goodStop t)) chars s .refl

theorem State.takeBreak_acts (n : Fin 4) (s : State) : Acts s (s.takeBreak n) := by
  have hspacing : Acts s (s.changeLink n { s.links[n] with
      receive := .spacing, collected := [], charError := false, breakState := .broken }) :=
    Act.acts (Act.link s n _ fun h => Link.sound_of_receiver h
      (Link.receiverSound_empty (by simp) rfl rfl) rfl rfl rfl rfl rfl)
  have hsilent := hspacing.trans (State.silenceLink_acts n _)
  exact hsilent.tail (Act.latch _ .linkBreak n n.isLt)

/-- R59: the receiver of a line that returns to marking. -/
theorem State.returnToMarking_acts {n : Fin 4} {s : State} (hr : s.links[n].receive = .spacing) :
    Acts s (s.changeLink n { s.links[n] with receive := .waiting }) := by
  refine (Act.link s n _ fun h => ?_).acts
  have hempty := Link.receiverSound_of_sound h
  simp only [Link.receiverSound, hr, reduceCtorEq, if_false, Bool.and_eq_true, decide_eq_true_eq,
    Bool.not_eq_true'] at hempty
  exact Link.sound_of_receiver h (Link.receiverSound_empty (by simp) hempty.1 hempty.2)
    rfl rfl rfl rfl rfl

/-! ## Transmitters and hold timers (R70 to R73) -/

theorem State.complete_acts (n : Fin 4) (s : State) :
    Acts s (s.changeLink n (Link.complete s.holdTime s.links[n])) :=
  (Act.link s n _ fun h => Link.complete_sound _ h).acts

theorem State.refreshLink_acts (n : Fin 4) (s : State) : Acts s (s.refreshLink n) :=
  (Act.link s n _ fun h => Link.refresh_sound _ _ _ h).acts

theorem State.expireLink_acts (n : Fin 4) (s : State) : Acts s (s.expireLink n) :=
  (Act.link s n _ fun h => Link.expire_sound h).acts

/-- A hold timer that runs on keeps a record sound. -/
theorem Link.sound_holdTimer {l : Link} {n : Nat} (h : l.sound = true) :
    Link.sound { l with holdTimer := some n } = true := by
  simp only [Link.sound, Link.receiverSound, Link.flowSound, Link.transmitterSound,
    Link.holdUnderWay, Link.releaseUnderWay, Bool.and_eq_true] at h ⊢
  refine ⟨⟨h.1.1, ?_⟩, h.2⟩
  have hflow := h.1.2
  revert hflow
  cases l.flow <;> simp
  · exact fun h1 h2 _ => ⟨h1, h2⟩
  · exact fun h1 h2 h3 => ⟨⟨h1, h2⟩, h3.imp_right And.left⟩

theorem Link.holdTicked_sound (holdTime : Nat) (congested : Bool) {l : Link} (h : l.sound = true) :
    (l.holdTicked holdTime congested).sound = true := by
  rw [Link.holdTicked]
  split
  · exact h
  · split
    · exact Link.refresh_sound _ _ _ h
    · split
      · exact Link.expire_sound h
      · exact Link.sound_holdTimer h

/-- R76: clearing the marks is one change of every link. -/
theorem State.clearMarks_eachLink (s : State) :
    s.setLinks (Vector.ofFn fun n : Fin 4 => s.links[n].clearMarks) =
      s.eachLink Link.clearMarks :=
  (s.eachLink_sameFlow Link.clearMarks_flow).symm

theorem State.clearMarks_acts (s : State) :
    Acts s (s.setLinks (Vector.ofFn fun n : Fin 4 => s.links[n].clearMarks)) := by
  rw [State.clearMarks_eachLink]
  exact Act.acts (Act.links s _ fun l h => Link.sound_of_receiver h (Link.receiverSound_of_sound h)
    rfl rfl rfl rfl rfl)

/-! ## The clock (R27 to R31, R38, R40, R42) -/

/-- R26, R47: what a sound clock says. -/
theorem Clock.sound_iff (c : Clock) :
    c.sound = true ↔
      c.time.valid = true ∧ c.lastBoundary.valid = true ∧ c.dayOfWeek = c.time.date.dayOfWeek ∧
        c.subinterval ∈ Config.subintervalLengths ∧ c.phaseHalves ≤ 1 ∧ c.gapHalves ≤ 5 := by
  simp [Clock.sound, and_assoc]

/-- R26, R27: the next second keeps a clock sound, its gap and phase as they are set. -/
theorem Clock.nextSecond_sound {c : Clock} (h : c.sound = true) : c.nextSecond.sound = true := by
  rw [Clock.sound_iff] at h ⊢
  obtain ⟨htime, hlast, hday, hrest⟩ := h
  refine ⟨CalTime.next_valid htime, hlast, ?_, hrest⟩
  show (if c.time.next.date = c.time.date then _ else _) = c.time.next.date.dayOfWeek
  split
  · next hd => rw [hday, hd]
  · rfl

/-- Gap and phase within their limits keep a clock sound. -/
theorem Clock.sound_counts {c : Clock} {source : SecondSource} {gap phase : Nat}
    (hg : gap ≤ 5) (hp : phase ≤ 1) (h : c.sound = true) :
    Clock.sound { c with source := source, gapHalves := gap, phaseHalves := phase } = true := by
  rw [Clock.sound_iff] at h ⊢
  obtain ⟨htime, hlast, hday, hlength, -, -⟩ := h
  exact ⟨htime, hlast, hday, hlength, hp, hg⟩

theorem Clock.phase_le {c : Clock} (h : c.sound = true) : c.phaseHalves ≤ 1 :=
  ((Clock.sound_iff c).1 h).2.2.2.2.1

theorem Clock.gap_le {c : Clock} (h : c.sound = true) : c.gapHalves ≤ 5 :=
  ((Clock.sound_iff c).1 h).2.2.2.2.2

theorem State.setPhase_acts {n : Nat} (hn : n ≤ 1) (s : State) :
    Acts s (s.setClock { s.clock with phaseHalves := n }) :=
  Act.acts (Act.clock s _ rfl rfl fun h => Clock.sound_counts (source := s.clock.source)
    (Clock.gap_le h) hn h)

theorem State.setGap_acts {n : Nat} (hn : n ≤ 5) (s : State) :
    Acts s (s.setClock { s.clock with gapHalves := n }) :=
  Act.acts (Act.clock s _ rfl rfl fun h => Clock.sound_counts (source := s.clock.source)
    hn (Clock.phase_le h) h)

/-- A boundary at the clock's time with CLOCK_IRREGULAR. -/
theorem State.irregularBoundary_acts (s : State) :
    Acts s ((s.latch .clockIrregular 0).makeBoundary s.clock.time .irregular) :=
  (Act.latch s .clockIrregular 0 (by decide)).acts.trans (Act.boundary (s.latch _ _) _).acts

theorem State.boundaryAtSecond_acts (wrapped : Bool) (s : State) :
    Acts s (s.boundaryAtSecond wrapped) :=
  Acts.ite (fun _ => State.irregularBoundary_acts s)
    fun _ => Acts.when fun _ => (Act.boundary s .regular).acts

theorem State.advanceSecond_acts (s : State) : Acts s s.advanceSecond := by
  have hclock : Acts s (s.setClock s.clock.nextSecond.countSecond) :=
    Act.acts (Act.clock s _ rfl rfl fun h => Clock.nextSecond_sound h)
  exact hclock.trans (Acts.when fun _ => State.boundaryAtSecond_acts _ _)

theorem State.fallBack_acts (s : State) : Acts s s.fallBack := by
  have hclock : Acts s
      (s.setClock { s.clock with source := .internal, gapHalves := 0, phaseHalves := 0 }) :=
    Act.acts (Act.clock s _ rfl rfl fun h => Clock.sound_counts (by decide) (by decide) h)
  have hseconds := ((hclock.trans (State.advanceSecond_acts _)).trans
    (State.advanceSecond_acts _)).trans (State.advanceSecond_acts _)
  exact hseconds.trans (Acts.when fun _ => (Act.latch _ .clockIrregular 0 (by decide)).acts)

theorem State.advanceOutage_acts (s : State) : Acts s s.advanceOutage :=
  Act.acts (Act.clock s { s.clock.nextSecond with phaseHalves := 0 } rfl rfl fun h =>
    Clock.sound_counts (source := s.clock.source) (Clock.gap_le (Clock.nextSecond_sound h))
      (by decide) (Clock.nextSecond_sound h))

theorem State.tickClock_acts (s : State) : Acts s s.tickClock := by
  rw [State.tickClock]
  split
  · exact Acts.ite (fun _ => State.setPhase_acts (by decide) s)
      fun _ => (State.setPhase_acts (by decide) s).trans (State.advanceSecond_acts _)
  · exact Acts.ite (fun h => State.setGap_acts (by omega) s) fun _ => State.fallBack_acts s

theorem State.tick_acts (s : State) : Acts s s.tick := by
  rw [State.tick]
  refine Acts.ite (fun _ => Acts.ite (fun _ => State.tickClock_acts s) fun _ => ?_)
    fun _ => Acts.when fun _ => Acts.ite (fun _ => State.setPhase_acts (by decide) s)
      fun _ => State.advanceOutage_acts s
  have hpresence : Acts s.tickClock
      (channelNumbers.foldl (fun t k => t.tickPresence k) s.tickClock) :=
    Acts.foldl (f := fun t k => t.tickPresence k) (fun t k => State.tickPresence_acts k t) _ _
  rw [State.holdFold_eachLink]
  exact ((State.tickClock_acts s).trans hpresence).tail (Act.links _ _ fun _ h => Link.holdTicked_sound _ _ h)

/-- R38: the clock set to a real time. -/
theorem Clock.setTo_sound {t : CalTime} {source : SecondSource} {c : Clock}
    (ht : t.valid = true) (h : c.sound = true) : (c.setTo t source).sound = true := by
  rw [Clock.sound_iff] at h ⊢
  exact ⟨ht, h.2.1, rfl, h.2.2.2.1, Nat.zero_le _, Nat.zero_le _⟩

theorem State.takeClock_acts {t : CalTime} (source : SecondSource) (ht : t.valid = true) (s : State) :
    Acts s (s.takeClock t source).1 := by
  have hset : Acts s (s.setClock (s.clock.setTo t source)) :=
    Act.acts (Act.clock s _ rfl rfl (Clock.setTo_sound ht))
  rw [State.takeClock]
  dsimp only [okWith]
  split
  · exact hset
  · dsimp only
    exact hset.trans (State.irregularBoundary_acts (s.setClock (s.clock.setTo t source)))

theorem actSetClock_acts (time : TimeImage) (source : Byte) (s : State) :
    Acts s (actSetClock time source s).1 := by
  rw [actSetClock]
  split
  · next ht =>
    split
    · exact State.takeClock_acts _ ht s
    · exact .refl
  · exact .refl

theorem actSetSubinterval_acts (length : Half) (s : State) :
    Acts s (actSetSubinterval length s).1 := by
  rw [actSetSubinterval]
  split
  · exact .refl
  · next hl =>
    split
    · exact .refl
    · split
      · exact .refl
      · next hf =>
        exact (Act.subinterval s _ (not_not.1 hl) (by simpa using hf)).acts

/-! ## The tariff table (R51 to R54) -/

theorem actLoadSchedule_acts (slot : Byte) (body : List Byte) (s : State) :
    Acts s (actLoadSchedule slot body s).1 := by
  rw [actLoadSchedule]
  split
  · exact .refl
  · exact .refl
  · next hc =>
    split
    · exact .refl
    · exact (Act.schedule s _ _ _ _ hc).acts

theorem actLoadHolidays_acts (count : Byte) (body : List Byte) (s : State) :
    Acts s (actLoadHolidays count body s).1 := by
  rw [actLoadHolidays]
  split
  · exact .refl
  · next hc =>
    split
    · exact .refl
    · exact (Act.holidays s _ _ _ hc).acts

/-! ## Power (R183 to R189) -/

theorem State.startUp_acts (cause : ResetCause) (s : State) : Acts s (s.startUp cause) :=
  (Act.restart s _).acts.trans (Acts.when fun _ => State.irregularBoundary_acts _)

theorem actEngineClear_acts (s : State) : Acts s (actEngineClear s).1 := by
  rw [actEngineClear]
  split
  · exact .refl
  · next h => exact (Act.engineClear s (by simpa using h)).acts

/-! ## The sweep (R105 to R108) -/

/-- The visit to a slot leaves its account current, or in a state that is not swept. -/
theorem State.visitSlot_current {i : Fin 32} {s : State}
    (h : (s.visitSlot i).slots[i].state.swept = true) :
    (s.visitSlot i).slots[i].lastBoundary = s.sweep.b := by
  rcases State.visitSlot_cases i s with ⟨hpass, hcur⟩ | ⟨hstep, hsw, -⟩
  · rw [hpass] at h ⊢
    exact hcur h
  · rw [hstep] at h ⊢
    by_cases hv : s.verified i = true
    · exact State.boundaryStep_lastBoundary hv
    · rw [State.boundaryStep_of_not_verified (by simpa using hv)] at h
      simp [faultedRecord, AccountState.swept] at h

theorem State.visitSlot_acts (i : Fin 32) (s : State) : Acts s (s.visitSlot i) :=
  Acts.when fun h => (Act.step s i (by simp_all)).acts

theorem State.visitSlot_sweep (i : Fin 32) (s : State) : (s.visitSlot i).sweep = s.sweep := by
  rcases State.visitSlot_cases i s with ⟨hpass, -⟩ | ⟨hstep, -⟩
  · rw [hpass]
  · rw [hstep, State.boundaryStep_sweep]

theorem State.finishSweep_acts {i : Fin 32} {s : State} (hi : i.val = 31)
    (hn : s.sweep.nextSlot = i.val) (hr : s.sweep.running = true)
    (hv : s.slots[i].state.swept = true → s.slots[i].lastBoundary = s.sweep.b) :
    Acts s s.finishSweep := by
  have hidle := (Act.finished s i hi hn hr hv).acts
  rcases State.finishSweep_cases s with ⟨-, heq⟩ | ⟨q, -, -, heq⟩
  · rw [heq]; exact hidle
  · rw [heq]; exact hidle.trans (Act.start _ _ rfl).acts

theorem State.visitNext_acts {s : State} (hr : s.sweep.running = true) : Acts s s.visitNext := by
  rw [State.visitNext]
  split
  · next h =>
    have hsw := State.visitSlot_sweep ⟨s.sweep.nextSlot, h⟩ s
    have hrun := hsw ▸ hr
    refine (State.visitSlot_acts ⟨s.sweep.nextSlot, h⟩ s).trans (Acts.ite (fun hi => ?_) fun hi => ?_)
    · exact State.finishSweep_acts hi (by rw [hsw]) hrun
        fun hv => (State.visitSlot_current hv).trans (by rw [hsw])
    · exact (Act.visited _ ⟨s.sweep.nextSlot, h⟩ (Nat.lt_of_le_of_ne (Nat.le_of_lt_succ h) hi)
        (by rw [hsw]) hrun fun hv => (State.visitSlot_current hv).trans (by rw [hsw])).acts
  · exact .refl

theorem State.takeMarker_acts {s : State} (hr : s.sweep.running = false) : Acts s s.takeMarker := by
  rw [State.takeMarker]
  split
  · exact (Act.start s _ hr).acts
  · exact .refl

end Sys2Proof.Machine

/-!
PROOFS. The commands on accounts, channels and the attention unit as sequences of acts, and the step
itself: apart from a storage disturbance, every step is a sequence of acts.
-/

namespace Sys2Proof.Machine

/-! ## Commands on accounts (R13, R144 to R160) -/

theorem State.bring_acts (i : Fin 32) (s : State) : Acts s (s.bring i) := by
  rcases State.bring_cases i s with ⟨h, -⟩ | ⟨h, -, hsw⟩ | ⟨h, -, hsw⟩
  · rw [h]
  · rw [h]; exact (Act.step s i hsw).acts
  · rw [h]; exact (Act.fault s i hsw).acts

@[simp] theorem State.bring_directory (i : Fin 32) (s : State) :
    (s.bring i).directory = s.directory := by
  rcases State.bring_cases i s with ⟨h, -⟩ | ⟨h, -, -⟩ | ⟨h, -, -⟩ <;> rw [h] <;> simp

/-- An account command is pull-forward or verification, and then its own rule on a listed slot. -/
theorem accountCommand_acts {account : Word} {permitted : Bool}
    {own : Fin 32 → State → State × Response}
    (hown : ∀ i t, t.Listed i → Acts t (own i t).1) (s : State) :
    Acts s (accountCommand account permitted own s).1 := by
  rcases accountCommand_cases account permitted own s with
    ⟨-, h⟩ | ⟨i, -, -, -, h⟩ | ⟨i, hi, -, h⟩
  · rw [h]
  · rw [h]; exact State.bring_acts i s
  · rw [h]
    have hlisted : (s.bring i).Listed i := by
      obtain ⟨e, he, hslot⟩ := State.listed_of_lookup hi
      exact ⟨e, by rw [State.bring_directory]; exact he, hslot⟩
    exact (State.bring_acts i s).trans (hown i _ hlisted)

theorem Account.pendingSound_iff (a : Account) :
    a.pendingSound = true ↔
      (a.closePending = true → (a.state = .active ∨ a.state = .suspended) ∧ a.snapshot = none) ∧
        (a.suspendPending = true → a.state = .active) ∧
        (a.resumePending = true → a.state = .suspended) := by
  simp only [Account.pendingSound]
  cases a.closePending <;> cases a.suspendPending <;> cases a.resumePending <;> simp [and_assoc]

theorem Account.snapshotSound_of_active {a : Account} (h : a.state = .active) :
    a.snapshotSound = true := by simp [Account.snapshotSound, h]

theorem Account.snapshotSound_of_suspended {a : Account} (h : a.state = .suspended) :
    a.snapshotSound = true := by simp [Account.snapshotSound, h]

theorem ownClosePeriod_acts (i : Fin 32) (s : State) (hl : s.Listed i) :
    Acts s (ownClosePeriod i s).1 := by
  rw [ownClosePeriod]
  split
  · exact .refl
  · next hst =>
    split
    · exact .refl
    · next hsn =>
      split
      · exact .refl
      · refine Act.acts (Act.slot s i _ hl fun hv => ⟨⟨hv, fun hk => ⟨?_, ?_, hk.top⟩,
          fun h => h, rfl⟩, rfl⟩)
        · have hpend := (Account.pendingSound_iff _).1 hk.pending
          exact (Account.pendingSound_iff _).2
            ⟨fun _ => ⟨by simp only; tauto, by simpa using hsn⟩, hpend.2⟩
        · exact hk.snapshot

theorem ownFetchClosed_acts (account : Word) (i : Fin 32) (s : State) (hl : s.Listed i) :
    Acts s (ownFetchClosed account i s).1 := by
  rw [ownFetchClosed]
  split
  · exact .refl
  · split
    · exact (Act.vacate s i hl).acts
    · next hr =>
      refine Act.acts (Act.slot s i _ hl fun hv => ⟨⟨hv, fun hk => ⟨?_, ?_, hk.top⟩,
        fun h => h, rfl⟩, rfl⟩)
      · have hpend := (Account.pendingSound_iff _).1 hk.pending
        exact (Account.pendingSound_iff _).2 ⟨fun h => ⟨(hpend.1 h).1, rfl⟩, hpend.2⟩
      · simp only [Account.snapshotSound]
        split <;> simp_all

theorem ownStageAmendment_acts (image : ContractImage) (i : Fin 32) (s : State) (hl : s.Listed i) :
    Acts s (ownStageAmendment image i s).1 := by
  rw [ownStageAmendment]
  split
  · exact .refl
  · next hb =>
    split
    · exact .refl
    · next hc =>
      split
      · exact .refl
      · exact (Act.stage s i image hl (by simpa using hb) hc).acts

/-- R149: a STAGED amendment, read from its contract. -/
theorem stagedContract_eq_some {a : Account} {c : ContractImage} :
    stagedContract a = some c ↔ a.amendment = some ⟨.staged, c⟩ := by
  rcases h : a.amendment with _ | ⟨_ | m, d⟩ <;> simp [stagedContract, h]

theorem ownCommitAmendment_acts (mode : Byte) (i : Fin 32) (s : State) (hl : s.Listed i) :
    Acts s (ownCommitAmendment mode i s).1 := by
  rw [ownCommitAmendment]
  split
  · exact .refl
  · split
    · exact .refl
    · split
      · exact .refl
      · next hs =>
        split
        · next hf => exact (Act.repair s i _ hl hs hf).acts
        · refine Act.acts (Act.slot s i _ hl fun hv =>
            ⟨⟨hv, fun hk => ⟨hk.pending, hk.snapshot, hk.top⟩, fun h => h, rfl⟩, ?_⟩)
          rw [stagedContract_eq_some] at hs
          simp only [Account.countedTerms, Account.amendmentTerms, hs]

theorem ownWithdrawAmendment_acts (i : Fin 32) (s : State) (hl : s.Listed i) :
    Acts s (ownWithdrawAmendment i s).1 := by
  rw [ownWithdrawAmendment]
  split
  · exact .refl
  · next m hm => exact (Act.withdraw s i m hl hm).acts

theorem State.setSuspend_acts {i : Fin 32} {s : State} {b : Bool} (hl : s.Listed i)
    (hs : b = true → s.slots[i].state = .active) :
    Acts s (s.setSlot i { s.slots[i] with suspendPending := b }) := by
  refine Act.acts (Act.slot s i _ hl fun hv => ⟨⟨hv, fun hk => ⟨?_, hk.snapshot, hk.top⟩,
    fun h => h, rfl⟩, rfl⟩)
  have hpend := (Account.pendingSound_iff _).1 hk.pending
  exact (Account.pendingSound_iff _).2 ⟨hpend.1, hs, hpend.2.2⟩

theorem State.setResume_acts {i : Fin 32} {s : State} {b : Bool} (hl : s.Listed i)
    (hr : b = true → s.slots[i].state = .suspended) :
    Acts s (s.setSlot i { s.slots[i] with resumePending := b }) := by
  refine Act.acts (Act.slot s i _ hl fun hv => ⟨⟨hv, fun hk => ⟨?_, hk.snapshot, hk.top⟩,
    fun h => h, rfl⟩, rfl⟩)
  have hpend := (Account.pendingSound_iff _).1 hk.pending
  exact (Account.pendingSound_iff _).2 ⟨hpend.1, hpend.2.1, hr⟩

theorem ownSuspendAccount_acts (i : Fin 32) (s : State) (hl : s.Listed i) :
    Acts s (ownSuspendAccount i s).1 := by
  rw [ownSuspendAccount]
  split
  · next ha =>
    split
    · exact .refl
    · exact State.setSuspend_acts hl fun _ => ha
  · split
    · exact State.setResume_acts hl fun h => absurd h (by decide)
    · exact .refl
  · exact .refl

theorem ownResumeAccount_acts (i : Fin 32) (s : State) (hl : s.Listed i) :
    Acts s (ownResumeAccount i s).1 := by
  rw [ownResumeAccount]
  split
  · next ha =>
    split
    · exact .refl
    · exact State.setResume_acts hl fun _ => ha
  · split
    · exact State.setSuspend_acts hl fun h => absurd h (by decide)
    · exact .refl
  · exact .refl

/-- R158: an account that becomes RETIRING holds no snapshot and keeps its terms counted. -/
theorem retiringRecord_kept {a : Account} (hs : a.snapshot = none)
    (hst : a.state = .active ∨ a.state = .suspended) :
    SlotKept a (retiringRecord a) ∧ (retiringRecord a).countedTerms = a.countedTerms := by
  refine ⟨⟨by simp [retiringRecord], fun hk => ⟨?_, ?_, hk.top⟩, fun _ => ?_, rfl⟩, ?_⟩
  · rw [Account.pendingSound_iff]; simp [retiringRecord]
  · simp [Account.snapshotSound, retiringRecord, hs]
  · rcases hst with h | h <;> simp [h, AccountState.swept]
  · rcases hst with h | h <;>
      simp [Account.countedTerms, Account.amendmentTerms, retiringRecord, h, AccountState.counted]

theorem ownRetireAccount_acts (i : Fin 32) (s : State) (hl : s.Listed i) :
    Acts s (ownRetireAccount i s).1 := by
  rw [ownRetireAccount]
  split
  · exact .refl
  · next hst =>
    split
    · exact .refl
    · next hsn =>
      split
      · exact (Act.vacate s i hl).acts
      · next hf => exact (Act.closeFaulted s i hl hf).acts
      · refine Act.acts (Act.slot s i _ hl fun hv => retiringRecord_kept (by simpa using hsn) ?_)
        cases h : s.slots[i].state <;> simp_all

theorem actOpenAccount_acts (image : ContractImage) (s : State) :
    Acts s (actOpenAccount image s).1 := by
  unfold actOpenAccount
  cases hc : s.contractCheck image with
  | some status => exact .refl
  | none =>
    dsimp only
    by_cases hn : (s.lookup image.account).isSome = true
    · rw [if_pos hn]
      exact .refl
    · rw [if_neg hn]
      have hnone : s.lookup image.account = none := by simpa using hn
      cases hv : s.lowestVacant with
      | none => exact .refl
      | some i => exact (Act.openIn s i image hc hnone hv).acts

/-! ## Commands on channels (R98 to R101) -/

theorem actRegisterMeter_acts (channel : Byte) (identity : Quantity) (rated : Word) (s : State) :
    Acts s (actRegisterMeter channel identity rated s).1 := by
  rw [actRegisterMeter]
  split
  · exact .refl
  · split
    · exact .refl
    · exact (Act.channel s _ _ (registered_channelKept _ _ _ _)).acts

theorem actReleaseMeter_acts (channel : Byte) (s : State) :
    Acts s (actReleaseMeter channel s).1 := by
  rw [actReleaseMeter]
  split
  · exact .refl
  · split
    · exact .refl
    · next h =>
      split
      · exact .refl
      · exact (Act.channel s _ _ (released_channelKept (not_not.1 h))).acts

theorem actSetChannelPolicy_acts (channel policy timeout : Byte) (rated : Word) (s : State) :
    Acts s (actSetChannelPolicy channel policy timeout rated s).1 := by
  rw [actSetChannelPolicy]
  split
  · split
    · exact .refl
    · exact (Act.channel s _ _ (withPolicy_channelKept (by omega) (by omega))).acts
  · exact .refl

/-! ## Commands on the attention unit (R166 to R169) -/

theorem State.setPairs_acts (f : AttnPair → Bool) (s : State) :
    Acts s (s.setPairs (s.attention.pendingSet.filter f)) := (Act.attention s f _).acts

theorem actTakeAttention_acts (s : State) : Acts s (actTakeAttention s).1 := by
  rw [actTakeAttention]
  split
  · exact State.setPairs_acts _ s
  · exact .refl

theorem actDismiss_acts (kinds : Half) (source : Option Byte) (s : State) :
    Acts s (actDismiss kinds source s).1 := by
  rw [actDismiss]
  split
  · exact .refl
  · exact State.setPairs_acts _ s

theorem actSetAttentionMask_acts (mask : Half) (s : State) :
    Acts s (actSetAttentionMask mask s).1 := by
  have h := (Act.attention s (fun _ => true) mask).acts
  rw [List.filter_true] at h
  exact h

/-! ## Requests and transactions (R172 to R177) -/

/-- A request is no event, or its act and a change of the port. -/
theorem State.request_acts {c : Instr} {act : State → State × Response} {s : State}
    (h : Acts s (act s).1) : Acts s (s.request c act) := by
  rcases State.request_cases c act s with heq | heq
  · rw [heq]
  · rw [heq]; exact h.tail (Act.port _ _)

theorem State.send_acts (message : List Byte) (s : State) : Acts s (s.send message) := by
  rw [State.send]
  split
  · exact (Act.port s _).acts
  · exact (Act.port s _).acts.tail (Act.port _ _)

theorem State.read_acts (clocked : Nat) (s : State) : Acts s (s.read clocked) := by
  rw [State.read]
  split
  · exact Acts.ite (fun _ => (Act.port s _).acts.tail (Act.port _ _)) fun _ => (Act.port s _).acts
  · exact (Act.port s _).acts

theorem State.void_acts (code : Option Byte) (later : Nat) (s : State) :
    Acts s (s.void code later) := by
  cases code <;> exact (Act.port s _).acts

theorem State.endExecution_acts (s : State) : Acts s s.endExecution := by
  rw [State.endExecution]
  split
  · exact (Act.port s _).acts
  · exact .refl

/-! ## The step -/

/-- Every command but a storage disturbance answers a next state that a sequence of acts reaches. -/
theorem exec_acts (c : Instr) (s : State) (hd : ∀ i d code, c ≠ .storageDisturbance i d code) :
    ∃ t, exec c s = .next t ∧ Acts s t := by
  cases c with
  | storageDisturbance i d code => exact absurd rfl (hd i d code)
  | sendTransaction m => exact ⟨_, rfl, Acts.when fun _ => State.send_acts m s⟩
  | readTransaction n => exact ⟨_, rfl, Acts.when fun _ => State.read_acts n s⟩
  | voidTransaction code n => exact ⟨_, rfl, Acts.when fun _ => State.void_acts code n s⟩
  | executionEnds => exact ⟨_, rfl, Acts.when fun _ => State.endExecution_acts s⟩
  | readIdentity => exact ⟨_, rfl, State.request_acts .refl⟩
  | engineClear => exact ⟨_, rfl, State.request_acts (actEngineClear_acts s)⟩
  | setClock t src => exact ⟨_, rfl, State.request_acts (actSetClock_acts t src s)⟩
  | readClock => exact ⟨_, rfl, State.request_acts .refl⟩
  | setSubinterval n => exact ⟨_, rfl, State.request_acts (actSetSubinterval_acts n s)⟩
  | loadSchedule k body => exact ⟨_, rfl, State.request_acts (actLoadSchedule_acts k body s)⟩
  | readSchedule k =>
    refine ⟨_, rfl, State.request_acts ?_⟩
    rw [actReadSchedule]
    split <;> exact .refl
  | loadHolidays n body => exact ⟨_, rfl, State.request_acts (actLoadHolidays_acts n body s)⟩
  | readHolidays => exact ⟨_, rfl, State.request_acts .refl⟩
  | setHoldTime n =>
    refine ⟨_, rfl, State.request_acts ?_⟩
    rw [actSetHoldTime]
    split
    · exact (Act.holdTime s _).acts
    · exact .refl
  | readLinks => exact ⟨_, rfl, State.request_acts (State.clearMarks_acts s)⟩
  | registerMeter k id r => exact ⟨_, rfl, State.request_acts (actRegisterMeter_acts k id r s)⟩
  | releaseMeter k => exact ⟨_, rfl, State.request_acts (actReleaseMeter_acts k s)⟩
  | setChannelPolicy k p n r =>
    exact ⟨_, rfl, State.request_acts (actSetChannelPolicy_acts k p n r s)⟩
  | readChannel k =>
    refine ⟨_, rfl, State.request_acts ?_⟩
    rw [actReadChannel]
    split <;> exact .refl
  | openAccount image => exact ⟨_, rfl, State.request_acts (actOpenAccount_acts image s)⟩
  | listAccounts a => exact ⟨_, rfl, State.request_acts .refl⟩
  | readAccount a =>
    exact ⟨_, rfl, State.request_acts (accountCommand_acts (fun _ _ _ => .refl) s)⟩
  | readRegisters a p =>
    refine ⟨_, rfl, State.request_acts (accountCommand_acts (fun i t _ => ?_) s)⟩
    rw [ownReadRegisters]
    split <;> exact .refl
  | readPeaks a =>
    exact ⟨_, rfl, State.request_acts (accountCommand_acts (fun _ _ _ => .refl) s)⟩
  | readSweep => exact ⟨_, rfl, State.request_acts .refl⟩
  | closePeriod a =>
    exact ⟨_, rfl, State.request_acts (accountCommand_acts ownClosePeriod_acts s)⟩
  | fetchClosed a =>
    exact ⟨_, rfl, State.request_acts (accountCommand_acts (ownFetchClosed_acts a) s)⟩
  | stageAmendment a image =>
    exact ⟨_, rfl, State.request_acts (accountCommand_acts (ownStageAmendment_acts image) s)⟩
  | commitAmendment a mode =>
    exact ⟨_, rfl, State.request_acts (accountCommand_acts (ownCommitAmendment_acts mode) s)⟩
  | withdrawAmendment a =>
    exact ⟨_, rfl, State.request_acts (accountCommand_acts ownWithdrawAmendment_acts s)⟩
  | suspendAccount a =>
    exact ⟨_, rfl, State.request_acts (accountCommand_acts ownSuspendAccount_acts s)⟩
  | resumeAccount a =>
    exact ⟨_, rfl, State.request_acts (accountCommand_acts ownResumeAccount_acts s)⟩
  | retireAccount a =>
    exact ⟨_, rfl, State.request_acts (accountCommand_acts ownRetireAccount_acts s)⟩
  | takeAttention => exact ⟨_, rfl, State.request_acts (actTakeAttention_acts s)⟩
  | dismiss ks src => exact ⟨_, rfl, State.request_acts (actDismiss_acts ks src s)⟩
  | setAttentionMask m => exact ⟨_, rfl, State.request_acts (actSetAttentionMask_acts m s)⟩
  | readAttention k =>
    refine ⟨_, rfl, State.request_acts ?_⟩
    rw [actReadAttention]
    split <;> exact .refl
  | powerOn =>
    exact ⟨_, rfl, Acts.ite (fun _ => .refl) fun _ => Acts.ite (fun _ => State.startUp_acts _ s)
      fun _ => (Act.lost s).acts⟩
  | mainPowerLoss => exact ⟨_, rfl, Acts.when fun _ => (Act.sleep s _ rfl).acts⟩
  | backupSupplyLoss => exact ⟨_, rfl, Acts.ite (fun _ => .refl) fun _ =>
      (Act.device s { s.device with retentionValid := false } rfl).acts⟩
  | resetPinAsserted =>
    exact ⟨_, rfl, Acts.when fun _ =>
      (Act.sleep s { s.device with resetHeld := true } (Bool.and_false s.device.mainPower)).acts⟩
  | resetPinReleased => exact ⟨_, rfl, Acts.when fun _ => State.startUp_acts _ s⟩
  | secondPulseEdge =>
    exact ⟨_, rfl, Acts.when fun _ =>
      (State.setGap_acts (by decide) s).trans (State.advanceSecond_acts _)⟩
  | internalSecond =>
    exact ⟨_, rfl, Acts.when fun _ =>
      (State.setPhase_acts (by decide) s).trans (State.advanceSecond_acts _)⟩
  | pulseLossFallback => exact ⟨_, rfl, Acts.when fun _ => State.fallBack_acts s⟩
  | frameReceived n c rest =>
    exact ⟨_, rfl, Acts.when fun _ => State.receiveCharacters_acts n (c :: rest) s⟩
  | idleGap n => exact ⟨_, rfl, Acts.when fun _ => State.endFrame_acts n _ _ s⟩
  | lineReturnsToMarking n =>
    exact ⟨_, rfl, Acts.when fun h => State.returnToMarking_acts h.2⟩
  | lineBreak n => exact ⟨_, rfl, Acts.when fun _ => State.takeBreak_acts n s⟩
  | transmissionComplete n => exact ⟨_, rfl, Acts.when fun _ => State.complete_acts n s⟩
  | refreshPoint n => exact ⟨_, rfl, Acts.when fun _ => State.refreshLink_acts n s⟩
  | holdExpiry n => exact ⟨_, rfl, Acts.when fun _ => State.expireLink_acts n s⟩
  | presenceTimerExpiry k =>
    exact ⟨_, rfl, Acts.when fun h => State.expirePresence_acts h.2⟩
  | takeFrameEntry =>
    refine ⟨_, rfl, Acts.when fun h => ?_⟩
    split
    · next e rest he =>
      have hhead : s.markerAtHead = false := by simpa using (Bool.and_eq_true_iff.1 h).2
      exact (Act.remove s e rest he hhead).acts.trans (State.takeFrame_acts e _)
    · exact .refl
  | takeMarker =>
    exact ⟨_, rfl, Acts.when fun h => State.takeMarker_acts (by simp_all)⟩
  | sweepVisit => exact ⟨_, rfl, Acts.when fun h => State.visitNext_acts (by simp_all)⟩
  | characterReceived n c good =>
    exact ⟨_, rfl, Acts.when fun _ => State.receiveCharacter_acts n c good s⟩
  | outageSecondAdvance => exact ⟨_, rfl, Acts.when fun _ => State.advanceOutage_acts s⟩

/-- A step is a sequence of acts, or a storage disturbance at the front of the queue. -/
theorem step_acts {s t : State} (h : step s = .next t) :
    Acts s t ∨ ∃ i c code rest, s.pending = .storageDisturbance i c code :: rest ∧
      execStorageDisturbance i c code (s.withPending rest) = .next t := by
  rw [Machine.step] at h
  split at h
  · cases h
    exact .inl (State.tick_acts s)
  · next c rest hp =>
    by_cases hd : ∃ i d code, c = .storageDisturbance i d code
    · obtain ⟨i, d, code, rfl⟩ := hd
      exact .inr ⟨i, d, code, rest, hp, h⟩
    · obtain ⟨u, hu, hacts⟩ := exec_acts c (s.withPending rest)
        fun i d code hc => hd ⟨i, d, code, hc⟩
      rw [hu] at h
      cases h
      exact .inl ((Act.pending s rest).acts.trans hacts)

/-- What every act and every disturbance of an occupied slot keep, every step keeps. -/
theorem step_keeps {P : State → Prop} (hP : ∀ s t, Act s t → P s → P t)
    (hD : ∀ (i : Fin 32) (c : ContractImage) (code : Half) (s : State), s.slots[i].state ≠ .vacant →
      P s → P (s.setSlot i { s.slots[i] with contract := c, checkCode := code }))
    {s t : State} (h : step s = .next t) (hs : P s) : P t := by
  rcases step_acts h with hacts | ⟨i, c, code, rest, -, hdisturb⟩
  · exact hacts.keep hP hs
  · have hrest : P (s.withPending rest) := hP _ _ (Act.pending s rest) hs
    rw [execStorageDisturbance] at hdisturb
    cases hdisturb
    split
    · exact hrest
    · next hv => exact hD i c code _ hv hrest

end Sys2Proof.Machine

/-!
PROOFS. The invariants of the intake side, the attention unit, the clock and the tariff table, each kept
by every act and so by every step.
-/

namespace Sys2Proof.Machine

theorem State.awake_congr {s t : State} (h : t.device = s.device) : t.awake = s.awake := by
  rw [State.awake, State.awake, h]

/-! ## What ENGINE CLEAR and a start leave -/

section
variable (s : State)

@[simp] theorem State.engineClear_queue : s.engineClear.queue = IntakeQueue.empty := by
  simp [State.engineClear]
@[simp] theorem State.engineClear_clock :
    s.engineClear.clock = { s.clock with markerWaiting := false } := by simp [State.engineClear]
@[simp] theorem State.engineClear_links :
    s.engineClear.links = Vector.replicate 4 (Link.afterReset s.holdTime) := by
  simp [State.engineClear]
@[simp] theorem State.engineClear_channels :
    s.engineClear.channels = Vector.ofFn fun k : Fin 16 => channelAfterClear s.channels[k] := by
  simp [State.engineClear]
@[simp] theorem State.engineClear_tariff : s.engineClear.tariff = s.tariff := by
  simp [State.engineClear]
@[simp] theorem State.engineClear_slots : s.engineClear.slots = s.slots := by
  simp [State.engineClear]
@[simp] theorem State.engineClear_directory : s.engineClear.directory = s.directory := by
  simp [State.engineClear]
@[simp] theorem State.engineClear_awake : s.engineClear.awake = s.awake := by
  simp [State.engineClear, State.awake]
@[simp] theorem State.engineClear_holdTime : s.engineClear.holdTime = s.holdTime := by
  simp [State.engineClear]
@[simp] theorem State.engineClear_port : s.engineClear.port = s.port := by
  simp [State.engineClear]
@[simp] theorem State.engineClear_pending : s.engineClear.pending = s.pending := by
  simp [State.engineClear]
@[simp] theorem State.engineClear_device :
    s.engineClear.device = { s.device with resetCause := .engineClear } := by
  simp [State.engineClear]

theorem State.engineClear_attention : s.engineClear.attention.sound = true :=
  State.resetChannels_attention _ rfl

end

/-! ## O51: the state after reset -/

/-- Settles O51, by evaluation of the one state. -/
theorem resetHasTheInvariants : Obligations.ResetHasTheInvariants := by
  refine ⟨?_, ?_, ?_, ?_, ?_, ?_, ?_, ?_, ?_⟩ <;> decide +kernel

/-! ## O52: queue, marker and sweep -/

/-- The agreement of queue, marker and sweep reads these three items alone. -/
theorem State.queueSound_congr {s t : State} (hq : t.queue = s.queue)
    (hm : t.clock.markerWaiting = s.clock.markerWaiting) (hw : t.sweep = s.sweep) :
    t.queueSound = s.queueSound := by
  simp only [State.queueSound, State.markerAgrees, State.heldAgrees, State.markerAtHead, hq, hm, hw]

/-- With no marker in the queue, the agreement is that no marker is recorded and the rest is sound. -/
theorem State.queueSound_of_noMarker {s : State} (hl : s.queue.entries.length ≤ 64)
    (hn : s.queue.marker = none) (hm : s.clock.markerWaiting = false)
    (hh : s.sweep.heldMarker = false) (hw : s.sweep.sound = true) : s.queueSound = true := by
  simp [State.queueSound, IntakeQueue.bounded, State.markerAgrees, State.heldAgrees,
    State.markerAtHead, Config.queueCapacity, hl, hn, hm, hh, hw]

theorem State.queueSound_parts {s : State} (h : s.queueSound = true) :
    s.queue.bounded = true ∧ s.markerAgrees = true ∧ s.heldAgrees = true ∧
      s.sweep.sound = true := by
  simpa only [State.queueSound, Bool.and_eq_true, and_assoc] using h

theorem State.entries_le_of_queueSound {s : State} (h : s.queueSound = true) :
    s.queue.entries.length ≤ 64 := by
  have hb := (State.queueSound_parts h).1
  simp only [IntakeQueue.bounded, Bool.and_eq_true, decide_eq_true_eq] at hb
  exact hb.1

/-- R104: while the sweep runs, a record that names a slot is sound. -/
theorem Sweep.sound_running {w : Sweep} (hr : w.running = true) (hn : w.nextSlot < 32) :
    w.sound = true := by simp [Sweep.sound, hr, hn]

theorem Sweep.sound_idle {w : Sweep} (hr : w.running = false) (hn : w.nextSlot = 32) :
    w.sound = true := by simp [Sweep.sound, hr, hn]

/-- The held-marker flag is no part of the sweep record's soundness. -/
theorem Sweep.sound_held (w : Sweep) (b : Bool) :
    Sweep.sound { w with heldMarker := b } = w.sound := rfl

theorem Act.keeps_queueSound (s t : State) (h : Act s t) (hs : s.queueSound = true) :
    t.queueSound = true := by
  obtain ⟨hbounded, hmarker, hheld, hsweep⟩ := State.queueSound_parts hs
  have hlen := State.entries_le_of_queueSound hs
  cases h with
  | boundary kind => exact State.makeBoundary_queueSound _ _ hs
  | offer e => exact State.offerFrame_queueSound e hs
  | remove e rest he ha => exact State.removeHead_queueSound rest hs he ha
  | clock x hm hl hx => exact (State.queueSound_congr (s := s) (t := s.setClock x) rfl hm rfl).trans hs
  | engineClear hr =>
    exact State.queueSound_of_noMarker (by simp [IntakeQueue.empty]) (by simp [IntakeQueue.empty])
      (by simp) rfl (Sweep.sound_idle hr rfl)
  | restart d =>
    exact State.queueSound_of_noMarker (by simp [IntakeQueue.empty]) (by simp [IntakeQueue.empty])
      (by simp [Clock.afterStart]) (by simp) (by simp [Sweep.sound_held, hsweep])
  | sleep d ha =>
    exact State.queueSound_of_noMarker (by simp [IntakeQueue.empty]) (by simp [IntakeQueue.empty])
      (by simp) rfl (by simp [Sweep.sound_held, hsweep])
  | lost => exact resetHasTheInvariants.1
  | start m hr =>
    exact State.queueSound_of_noMarker (by simpa using hlen) (by simp) (by simp)
      (by simp [startedSweep]) (Sweep.sound_running (by simp [startedSweep]) (by simp [startedSweep]))
  | visited i hi hn hr hv =>
    have hsound : ({ s.sweep with nextSlot := i.val + 1 } : Sweep).sound = true :=
      Sweep.sound_running hr (Nat.succ_lt_succ hi)
    simp only [State.queueSound, Bool.and_eq_true]
    exact ⟨⟨⟨hbounded, hmarker⟩, hheld⟩, hsound⟩
  | finished i hi hn hr hv =>
    simp only [State.queueSound, Bool.and_eq_true]
    exact ⟨⟨⟨hbounded, hmarker⟩, by simp [State.heldAgrees]⟩, Sweep.sound_idle rfl rfl⟩
  | pending | port | device | holdTime | attention | latch | subinterval | schedule | holidays
  | link | links | channel | step | fault | slot | stage | withdraw | repair | closeFaulted | vacate
  | openIn =>
    rw [State.queueSound_congr, hs] <;>
      simp [State.loadSchedule, State.storeAmendment, State.openIn]

/-- Settles O52, by the acts of a step. -/
theorem queueAndMarkerStaySound : Obligations.QueueAndMarkerStaySound := fun _ _ hs hstep =>
  step_keeps (P := fun s => s.queueSound = true) Act.keeps_queueSound (fun _ _ _ _ _ h => h) hstep hs

/-! ## O53: the pending set -/

theorem Act.keeps_attention (s t : State) (h : Act s t) (hs : s.attention.sound = true) :
    t.attention.sound = true := by
  cases h with
  | attention f mask => exact Attention.sound_filter f mask hs
  | latch k n hn => exact State.latch_sound hn hs
  | boundary kind => exact State.makeBoundary_attention _ _ hs
  | offer e => exact State.offerFrame_attention e hs
  | remove e rest he ha => exact State.removeHead_attention rest hs
  | engineClear hr => exact State.engineClear_attention s
  | restart d => exact State.resetChannels_attention _ rfl
  | sleep d ha => rfl
  | lost => exact resetHasTheInvariants.2.1
  | step i hi => exact State.boundaryStep_attention i hs
  | fault i hi => exact State.enterFaulted_attention i hs
  | repair i c hl hc hf => exact State.latch_sound (k := .amendmentApplied) i.isLt hs
  | closeFaulted i hl hf => exact State.latch_sound (k := .closeDone) i.isLt hs
  | pending | port | device | holdTime | clock | subinterval | schedule | holidays | link | links
  | channel | start | visited | finished | slot | stage | withdraw | vacate | openIn =>
    simpa [State.loadSchedule, State.storeAmendment, State.openIn] using hs

/-- Settles O53, by the acts of a step. -/
theorem pendingSetStaysASet : Obligations.PendingSetStaysASet := fun _ _ hs hstep =>
  step_keeps (P := fun s => s.attention.sound = true) Act.keeps_attention (fun _ _ _ _ _ h => h)
    hstep hs

/-! ## O54: the clock and the tariff table -/

/-- The tariff's soundness reads the tariff and the subinterval length alone. -/
theorem State.tariffSound_congr {s t : State} (ht : t.tariff = s.tariff)
    (hl : t.clock.subinterval = s.clock.subinterval) : t.tariffSound = s.tariffSound := by
  simp only [State.tariffSound, ht, hl]

/-- R45: what a tariff table in form says. -/
theorem State.tariffSound_iff (s : State) :
    s.tariffSound = true ↔ holidaysSound s.tariff.holidays = true ∧
      ∀ (k : Fin 8) (p : Schedule), s.tariff.schedules[k] = some p →
        scheduleSound s.clock.subinterval p = true := by
  simp only [State.tariffSound, Bool.and_eq_true, List.all_eq_true, Vector.mem_toList_iff]
  refine and_congr_right fun _ => ⟨fun h k p hp => ?_, fun h slot hslot => ?_⟩
  · have := h _ (Vector.getElem_mem (xs := s.tariff.schedules) k.isLt)
    simp only [Fin.getElem_fin] at hp
    rwa [hp] at this
  · obtain ⟨k, hk, rfl⟩ := Vector.getElem_of_mem hslot
    cases hp : s.tariff.schedules[k] with
    | none => rfl
    | some p => exact h ⟨k, hk⟩ p hp

/-- R45: what a stored day program says. -/
theorem programSound_iff (length : Nat) (points : List SwitchPoint) :
    programSound length points = true ↔
      points.length ≤ 8 ∧ minutesRise points = true ∧ programFits length points = true ∧
        (∀ p ∈ points, p.minute ≤ 1439) ∧ ∃ p rest, points = p :: rest ∧ p.minute = 0 := by
  cases points <;> simp [programSound, and_assoc]

/-- The points that R51 finds no fault with, behind a point with the minute before, are in order. -/
theorem badPoint_none {length : Nat} : ∀ {points : List RawPoint} {position m : Nat} {q : SwitchPoint},
    badPoint length position (some m) points = none → q.minute = m →
    minutesRise (q :: points.map storedPoint) = true ∧
      programFits length (points.map storedPoint) = true ∧
      ∀ p ∈ points.map storedPoint, p.minute ≤ 1439
  | [], _, _, _, _, _ => ⟨rfl, rfl, by simp⟩
  | p :: rest, position, m, q, h, hq => by
    rw [badPoint] at h
    split at h
    · next hp =>
      obtain ⟨horder, hmax, -, hfit⟩ := hp
      obtain ⟨hrise, hfits, hbound⟩ := badPoint_none (q := storedPoint p) h rfl
      have hlt : q.minute < (storedPoint p).minute := by
        rw [hq]; exact of_decide_eq_true horder
      refine ⟨?_, ?_, ?_⟩
      · simp only [List.map_cons, minutesRise, Bool.and_eq_true, decide_eq_true_eq]
        exact ⟨hlt, hrise⟩
      · rw [List.map_cons, programFits, List.all_cons, Bool.and_eq_true]
        exact ⟨by simpa [storedPoint] using hfit, hfits⟩
      · simp only [List.map_cons, List.mem_cons, forall_eq_or_imp]
        exact ⟨hmax, hbound⟩
    · cases h

/-- R45, R51: a day program with no fault is stored in form. -/
theorem badProgram_none {length : Nat} {points : List RawPoint}
    (h : badProgram length points = none) :
    programSound length (points.map storedPoint) = true := by
  rw [badProgram] at h
  split at h
  · cases h
  · next hcount =>
    cases points with
    | nil => simp at hcount
    | cons p rest =>
      rw [badPoint] at h
      split at h
      · next hp =>
        obtain ⟨hzero, hmax, -, hfit⟩ := hp
        obtain ⟨hrise, hfits, hbound⟩ := badPoint_none (q := storedPoint p) h rfl
        have hz : (storedPoint p).minute = 0 := by simpa [storedPoint] using hzero
        refine (programSound_iff _ _).2 ⟨by simp at hcount ⊢; omega, hrise, ?_, ?_, _, _, rfl, hz⟩
        · rw [List.map_cons, programFits, List.all_cons, Bool.and_eq_true]
          exact ⟨by simpa [storedPoint] using hfit, hfits⟩
        · simp only [List.map_cons, List.mem_cons, forall_eq_or_imp]
          exact ⟨hmax, hbound⟩
      · cases h

/-- R51: no day program carried is at fault. -/
theorem badPrograms_none {length : Nat} : ∀ {programs : List (List RawPoint)} {dayType : Nat},
    badPrograms length dayType programs = none →
    ∀ points ∈ programs, badProgram length points = none
  | [], _, _ => by simp
  | points :: rest, _, h => by
    rw [badPrograms] at h
    split at h
    · cases h
    · next hp =>
      simp only [List.mem_cons, forall_eq_or_imp]
      exact ⟨hp, badPrograms_none h⟩

/-- R51: four day programs are carried. -/
theorem length_rawPrograms : ∀ {n : Nat} {bytes : List Byte} {programs : List (List RawPoint)},
    rawPrograms n bytes = some programs → programs.length = n
  | 0, [], _, h => by cases h; rfl
  | 0, _ :: _, _, h => by cases h
  | _ + 1, [], _, h => by cases h
  | n + 1, count :: rest, programs, h => by
    rw [rawPrograms] at h
    split at h
    · cases h
    · rw [Option.map_eq_some_iff] at h
      obtain ⟨tail, htail, rfl⟩ := h
      rw [List.length_cons, length_rawPrograms htail]

/-- R45, R51: a schedule that passes the checks is stored in form. -/
theorem checkSchedule_sound {length : Nat} {slot : Byte} {body : List Byte} {k : Fin 8}
    {p : Schedule} (h : checkSchedule length slot body = .schedule k p) :
    scheduleSound length p = true := by
  rw [checkSchedule] at h
  split at h
  · split at h
    · cases h
    · next programs hraw =>
      split at h
      · cases h
      · split at h
        · cases h
        · next hbad =>
          cases h
          have hcount := length_rawPrograms hraw
          have hprogram : ∀ d < 4, programSound length (storedProgram programs d) = true := by
            intro d hd
            rw [storedProgram, List.getD_eq_getElem _ _ (by omega)]
            exact badProgram_none (badPrograms_none hbad _ (List.getElem_mem _))
          simp only [scheduleSound, storedSchedule, Bool.and_eq_true]
          exact ⟨⟨⟨hprogram 0 (by decide), hprogram 1 (by decide)⟩, hprogram 2 (by decide)⟩,
            hprogram 3 (by decide)⟩
  · cases h

/-- R46, R53: a holiday list that passes the checks is in form. -/
theorem checkHolidays_sound {count : Byte} {body : List Byte} {dates : List Date}
    (h : checkHolidays count body = some dates) : holidaysSound dates = true := by
  rw [checkHolidays] at h
  split at h
  · cases h
  · split at h
    · cases h
    · split at h
      · next hc hd =>
        cases h
        obtain ⟨hlength, hvalid, hascend⟩ := hd
        simp only [holidaysSound, Bool.and_eq_true, decide_eq_true_eq]
        exact ⟨⟨by omega, hvalid⟩, hascend⟩
      · cases h

/-- R40: a schedule in form that fits another length is in form under it. -/
theorem scheduleSound_of_fits {length n : Nat} {p : Schedule} (h : scheduleSound length p = true)
    (hf : scheduleFits n p = true) : scheduleSound n p = true := by
  simp only [scheduleSound, scheduleFits, Bool.and_eq_true, programSound_iff] at h hf ⊢
  obtain ⟨⟨⟨h1, h2⟩, h3⟩, h4⟩ := h
  obtain ⟨⟨⟨f1, f2⟩, f3⟩, f4⟩ := hf
  exact ⟨⟨⟨⟨h1.1, h1.2.1, f1, h1.2.2.2⟩, h2.1, h2.2.1, f2, h2.2.2.2⟩, h3.1, h3.2.1, f3, h3.2.2.2⟩,
    h4.1, h4.2.1, f4, h4.2.2.2⟩

/-- R40 step 3, slot by slot. -/
theorem State.schedulesFit_iff (n : Nat) (s : State) :
    s.schedulesFit n = true ↔ ∀ (k : Fin 8) (p : Schedule), s.tariff.schedules[k] = some p →
      scheduleFits n p = true := by
  simp only [State.schedulesFit, List.all_eq_true, Vector.mem_toList_iff]
  refine ⟨fun h k p hp => ?_, fun h slot hslot => ?_⟩
  · have := h _ (Vector.getElem_mem (xs := s.tariff.schedules) k.isLt)
    simp only [Fin.getElem_fin] at hp
    rwa [hp] at this
  · obtain ⟨k, hk, rfl⟩ := Vector.getElem_of_mem hslot
    cases hp : s.tariff.schedules[k] with
    | none => rfl
    | some p => exact h ⟨k, hk⟩ p hp

/-- A clock is sound with any boundary number, marker flag and monotonic count, and with the time of
the last boundary at a real time. -/
theorem Clock.sound_boundary {c : Clock} {n m : Word} {t : CalTime} {b : Bool} (h : c.sound = true)
    (ht : t.valid = true) :
    Clock.sound { c with
      boundaryNumber := n, lastBoundary := t, markerWaiting := b, monotonic := m } = true := by
  rw [Clock.sound_iff] at h ⊢
  exact ⟨h.1, ht, h.2.2⟩

theorem Clock.lastBoundary_valid {c : Clock} (h : c.sound = true) : c.lastBoundary.valid = true :=
  ((Clock.sound_iff c).1 h).2.1

theorem Act.keeps_clock (s t : State) (h : Act s t) (hs : s.clock.sound = true) :
    t.clock.sound = true := by
  have hlast := Clock.lastBoundary_valid hs
  cases h with
  | clock x hm hl hx => exact hx hs
  | subinterval n hn hf =>
    rw [Clock.sound_iff] at hs
    exact (Clock.sound_iff _).2 ⟨hs.1, hs.2.1, hs.2.2.1, hn, hs.2.2.2.2⟩
  | boundary kind =>
    rw [State.makeBoundary_clock]
    exact Clock.sound_boundary hs ((Clock.sound_iff _).1 hs).1
  | engineClear hr =>
    rw [State.setSweep_clock, State.engineClear_clock]
    exact Clock.sound_boundary hs hlast
  | restart d =>
    rw [State.resetChannels_clock, State.setDevice_clock, State.clearWorking_clock]
    exact Clock.sound_counts (source := s.clock.source) (Nat.zero_le _) (Nat.zero_le _)
      (Clock.sound_boundary (n := s.clock.boundaryNumber) (m := 0) (b := false) hs hlast)
  | sleep d ha => exact Clock.sound_boundary hs hlast
  | lost => exact resetHasTheInvariants.2.2.1
  | start m hr =>
    rw [State.startSweep_clock]
    exact Clock.sound_boundary hs hlast
  | pending | port | device | holdTime | attention | latch | schedule | holidays | link | links
  | offer | remove | channel | visited | finished | step | fault | slot | stage | withdraw | repair
  | closeFaulted | vacate | openIn =>
    simpa [State.loadSchedule, State.storeAmendment, State.openIn] using hs

theorem Act.keeps_tariff (s t : State) (h : Act s t) (hs : s.tariffSound = true) :
    t.tariffSound = true := by
  cases h with
  | clock x hm hl hx => exact (State.tariffSound_congr (s := s) (t := s.setClock x) rfl hl).trans hs
  | subinterval n hn hf =>
    rw [State.tariffSound_iff] at hs ⊢
    exact ⟨hs.1, fun k p hp => scheduleSound_of_fits (hs.2 k p hp)
      ((State.schedulesFit_iff n s).1 hf k p hp)⟩
  | schedule slot body k p hc =>
    rw [State.tariffSound_iff] at hs ⊢
    refine ⟨hs.1, fun j q hq => ?_⟩
    simp only [State.loadSchedule, State.setTariff_tariff, Fin.getElem_fin,
      Vector.getElem_set] at hq
    split at hq
    · cases hq; exact checkSchedule_sound hc
    · exact hs.2 j q hq
  | holidays count body dates hc =>
    rw [State.tariffSound_iff] at hs ⊢
    exact ⟨checkHolidays_sound hc, hs.2⟩
  | lost => exact resetHasTheInvariants.2.2.2.1
  | pending | port | device | holdTime | attention | latch | boundary | link | links | offer | remove
  | channel | engineClear | restart | sleep | start | visited | finished | step | fault | slot | stage
  | withdraw | repair | closeFaulted | vacate | openIn =>
    rw [State.tariffSound_congr, hs] <;>
      simp [State.storeAmendment, State.openIn, Clock.afterStart]

/-- Settles O54, by the acts of a step. -/
theorem clockAndTariffStaySound : Obligations.ClockAndTariffStaySound := fun _ _ hc ht hstep =>
  ⟨step_keeps (P := fun s => s.clock.sound = true) Act.keeps_clock (fun _ _ _ _ _ h => h) hstep hc,
    step_keeps (P := fun s => s.tariffSound = true) Act.keeps_tariff (fun _ _ _ _ _ h => h) hstep ht⟩

end Sys2Proof.Machine

/-!
PROOFS. The invariants of the channel records, the link records and the presence timers, each kept by
every act and so by every step.
-/

namespace Sys2Proof.Machine

/-! ## What a new account and a stored amendment leave -/

section
variable (i : Fin 32) (image : ContractImage) (s : State)

@[simp] theorem State.openIn_device : (s.openIn i image).device = s.device := by simp [State.openIn]
@[simp] theorem State.openIn_clock : (s.openIn i image).clock = s.clock := by simp [State.openIn]
@[simp] theorem State.openIn_tariff : (s.openIn i image).tariff = s.tariff := by simp [State.openIn]
@[simp] theorem State.openIn_links : (s.openIn i image).links = s.links := by simp [State.openIn]
@[simp] theorem State.openIn_holdTime : (s.openIn i image).holdTime = s.holdTime := by simp [State.openIn]
@[simp] theorem State.openIn_queue : (s.openIn i image).queue = s.queue := by simp [State.openIn]
@[simp] theorem State.openIn_sweep : (s.openIn i image).sweep = s.sweep := by simp [State.openIn]
@[simp] theorem State.openIn_attention : (s.openIn i image).attention = s.attention := by simp [State.openIn]
@[simp] theorem State.openIn_port : (s.openIn i image).port = s.port := by simp [State.openIn]
@[simp] theorem State.openIn_pending : (s.openIn i image).pending = s.pending := by simp [State.openIn]
@[simp] theorem State.openIn_slots :
    (s.openIn i image).slots = s.slots.set i (openingRecord image s.sweep.b) := by
  simp [State.openIn]
@[simp] theorem State.openIn_directory :
    (s.openIn i image).directory = insertEntry ⟨image.account, i⟩ s.directory := by
  simp [State.openIn]
@[simp] theorem State.storeAmendment_device : (s.storeAmendment i image).device = s.device := by
  simp [State.storeAmendment]
@[simp] theorem State.storeAmendment_clock : (s.storeAmendment i image).clock = s.clock := by
  simp [State.storeAmendment]
@[simp] theorem State.storeAmendment_tariff : (s.storeAmendment i image).tariff = s.tariff := by
  simp [State.storeAmendment]
@[simp] theorem State.storeAmendment_links : (s.storeAmendment i image).links = s.links := by
  simp [State.storeAmendment]
@[simp] theorem State.storeAmendment_holdTime : (s.storeAmendment i image).holdTime = s.holdTime := by
  simp [State.storeAmendment]
@[simp] theorem State.storeAmendment_queue : (s.storeAmendment i image).queue = s.queue := by
  simp [State.storeAmendment]
@[simp] theorem State.storeAmendment_sweep : (s.storeAmendment i image).sweep = s.sweep := by
  simp [State.storeAmendment]
@[simp] theorem State.storeAmendment_attention : (s.storeAmendment i image).attention = s.attention := by
  simp [State.storeAmendment]
@[simp] theorem State.storeAmendment_port : (s.storeAmendment i image).port = s.port := by
  simp [State.storeAmendment]
@[simp] theorem State.storeAmendment_pending : (s.storeAmendment i image).pending = s.pending := by
  simp [State.storeAmendment]
@[simp] theorem State.storeAmendment_directory : (s.storeAmendment i image).directory = s.directory := by
  simp [State.storeAmendment]
@[simp] theorem State.storeAmendment_slots :
    (s.storeAmendment i image).slots =
      s.slots.set i { s.slots[i] with amendment := some ⟨.staged, image.stored⟩ } := by
  simp [State.storeAmendment]

end

/-! ## What the acts leave of a channel -/

/-- A field of the vector of channels, read at a channel number. -/
theorem getElem_ofFn_channel (f : Fin 16 → Channel) (k : Fin 16) : (Vector.ofFn f)[k] = f k := by
  simp

theorem State.offerFrame_channel (e : FrameEntry) (s : State) (k : Fin 16) :
    (s.offerFrame e).channels[k] =
      retimed (s.flowing (linkOf k)) ((s.offerFrame e).flowing (linkOf k)) s.channels[k] := by
  by_cases hlength : s.queue.entries.length < 64
  · by_cases hc : s.queue.entries.length = 47 ∧ s.queue.congested = false
    · rw [State.offerFrame_congesting hc.1 hc.2, State.eachLink_channel, State.flowing,
        State.flowing, State.flowing, State.eachLink_link]
      rfl
    · rw [State.offerFrame_entered hlength (by simpa [imp_iff_not_or] using hc)]
      exact (retimed_same _ _).symm
  · have hflow : ((s.changeLink e.link { s.links[e.link] with overrunMark := true }).latch
        .queueOverrun e.link).flowing (linkOf k) = s.flowing (linkOf k) := by
      show (s.changeLink e.link { s.links[e.link] with overrunMark := true }).flowing _ = _
      rw [State.changeLink_flowing]
      split
      · next hk => rw [hk]; rfl
      · rfl
    rw [State.offerFrame_dropped (by omega), hflow, retimed_same, State.latch_channels,
      State.changeLink_sameFlow (l := { s.links[e.link] with overrunMark := true }) rfl,
      State.setLinks_channels]

/-- The operations on reference counts and slots leave the rest of every channel. -/
theorem Act.channel_of_counts {s t : State} {k : Fin 16} {n : Nat}
    (h : t.channels[k] = { s.channels[k] with referenceCount := n })
    (hs : s.channels[k].sound = true) : t.channels[k].sound = true := by
  rw [h, Channel.sound_referenceCount, hs]

theorem State.openIn_channel (i : Fin 32) (image : ContractImage) (s : State) (k : Fin 16) :
    (s.openIn i image).channels[k] = { s.channels[k] with
      referenceCount := s.channels[k].referenceCount + termsNaming k image.terms } := by
  simp [State.openIn, State.addTerms]

theorem State.storeAmendment_channel (i : Fin 32) (image : ContractImage) (s : State) (k : Fin 16) :
    (s.storeAmendment i image).channels[k] = { s.channels[k] with
      referenceCount :=
        countReleased s.channels[k].referenceCount (termsNaming k s.slots[i].amendmentTerms) +
          termsNaming k image.terms } := by
  simp [State.storeAmendment, State.addTerms, State.releaseTerms]

/-- R153: the record a repair leaves in its slot. -/
def State.repaired (i : Fin 32) (c : ContractImage) (s : State) : Account :=
  { applied c s.slots[i] with
    window := [], period := s.lookupPeriod c.schedule s.sweep.time,
    lastBoundary := s.sweep.b, state := .active }

theorem State.repair_eq (i : Fin 32) (c : ContractImage) (s : State) :
    s.repair i c = ((s.setSlot i (s.repaired i c)).recount).latch .amendmentApplied i := rfl

/-- R160: the record the immediate final close of a FAULTED account leaves. -/
def Account.closedFaulted (time : CalTime) (a : Account) : Account :=
  { closed true true time a with amendment := none, state := .retired }

theorem State.closeFaulted_eq (i : Fin 32) (s : State) :
    s.closeFaulted i =
      ((s.setSlot i (s.slots[i].closedFaulted s.clock.time)).recount).latch .closeDone i := rfl

theorem State.repair_channel (i : Fin 32) (c : ContractImage) (s : State) (k : Fin 16) :
    (s.repair i c).channels[k] = { s.channels[k] with
      referenceCount := if s.channels[k].state = .unregistered then 0
        else termsNaming k (s.setSlot i (s.repaired i c)).allTerms } := by
  rw [State.repair_eq, State.latch_channels, State.recount_channel, State.setSlot_channels]

theorem State.closeFaulted_channel (i : Fin 32) (s : State) (k : Fin 16) :
    (s.closeFaulted i).channels[k] = { s.channels[k] with
      referenceCount := if s.channels[k].state = .unregistered then 0
        else termsNaming k
          (s.setSlot i (s.slots[i].closedFaulted s.clock.time)).allTerms } := by
  rw [State.closeFaulted_eq, State.latch_channels, State.recount_channel, State.setSlot_channels]

/-! ## O55: channel records -/

theorem cleared_channel (s : State) (k : Fin 16) : s.startLost.channels[k] = Channel.cleared := by
  simp [State.startLost, State.reset]

theorem Act.keeps_channels (s t : State) (h : Act s t) (hs : ∀ k : Fin 16, s.channels[k].sound = true)
    (k : Fin 16) : t.channels[k].sound = true := by
  cases h with
  | link n l hl =>
    rw [State.changeLink_channel]
    split
    · exact retimed_sound (hs k)
    · exact hs k
  | links f hf => rw [State.eachLink_channel]; exact retimed_sound (hs k)
  | offer e => rw [State.offerFrame_channel]; exact retimed_sound (hs k)
  | remove e rest he ha => rw [State.removeHead_channel]; exact retimed_sound (hs k)
  | channel j d hd =>
    rw [State.setChannel_channel]
    split
    · exact hd.sound (hs j)
    · exact hs k
  | engineClear hr =>
    rw [State.setSweep_channels, State.engineClear_channels, getElem_ofFn_channel]
    exact channelAfterClear_sound (hs k)
  | restart d =>
    rw [State.resetChannels_channels, getElem_ofFn_channel]
    exact channelAfterRestart_sound (hs k)
  | lost => rw [cleared_channel]; decide
  | start m hr => rw [State.startSweep_channel]; exact sealChannel_sound (hs k)
  | step i hi => exact Act.channel_of_counts (State.boundaryStep_channel i s k) (hs k)
  | stage i image => exact Act.channel_of_counts (State.storeAmendment_channel i image s k) (hs k)
  | withdraw i m => exact Act.channel_of_counts (State.releaseTerms_channel _ s k) (hs k)
  | repair i c => exact Act.channel_of_counts (State.repair_channel i c s k) (hs k)
  | closeFaulted i => exact Act.channel_of_counts (State.closeFaulted_channel i s k) (hs k)
  | vacate i => exact Act.channel_of_counts (State.vacate_channel i s k) (hs k)
  | openIn i image => exact Act.channel_of_counts (State.openIn_channel i image s k) (hs k)
  | boundary kind => rw [State.makeBoundary_channels]; exact hs k
  | pending | port | device | holdTime | attention | latch | clock | subinterval | schedule | holidays
  | sleep | visited | finished | fault | slot => exact hs k

/-- Settles O55, by the acts of a step. -/
theorem channelRecordsStaySound : Obligations.ChannelRecordsStaySound := fun _ _ hs hstep =>
  step_keeps (P := fun s => ∀ k : Fin 16, s.channels[k].sound = true) Act.keeps_channels
    (fun _ _ _ _ _ h => h) hstep hs

/-! ## O56: link records and presence timers -/

theorem Link.afterReset_sound (n : Nat) : (Link.afterReset n).sound = true := by
  simp [Link.sound, Link.receiverSound, Link.flowSound, Link.transmitterSound, Link.afterReset]

theorem getElem_ofFn_link (f : Fin 4 → Link) (n : Fin 4) : (Vector.ofFn f)[n] = f n := by simp

/-- A record whose marks alone change is as sound as it was. -/
theorem Link.sound_overrunMark {l : Link} (b : Bool) (h : l.sound = true) :
    Link.sound { l with overrunMark := b } = true :=
  Link.sound_of_receiver h (Link.receiverSound_of_sound h) rfl rfl rfl rfl rfl

theorem State.changeLink_sound {n : Fin 4} {l : Link} {s : State}
    (hs : ∀ n : Fin 4, s.links[n].sound = true) (hl : l.sound = true) (m : Fin 4) :
    (s.changeLink n l).links[m].sound = true := by
  rw [State.changeLink_links, Fin.getElem_fin, Vector.getElem_set]
  split
  · exact hl
  · exact hs m

theorem State.eachLink_sound {f : Link → Link} {s : State}
    (hs : ∀ n : Fin 4, s.links[n].sound = true)
    (hf : ∀ l : Link, l.sound = true → (f l).sound = true) (m : Fin 4) :
    (s.eachLink f).links[m].sound = true := by
  rw [State.eachLink_link]
  exact hf _ (hs m)

theorem State.offerFrame_linksSound {e : FrameEntry} {s : State}
    (hs : ∀ n : Fin 4, s.links[n].sound = true) (m : Fin 4) :
    (s.offerFrame e).links[m].sound = true := by
  by_cases hlength : s.queue.entries.length < 64
  · by_cases hc : s.queue.entries.length = 47 ∧ s.queue.congested = false
    · rw [State.offerFrame_congesting hc.1 hc.2, State.eachLink_link]
      exact Link.holdRequest_sound _ (hs m)
    · rw [State.offerFrame_entered hlength (by simpa [imp_iff_not_or] using hc)]
      exact hs m
  · rw [State.offerFrame_dropped (by omega), State.latch_links]
    exact State.changeLink_sound hs (Link.sound_overrunMark true (hs e.link)) m

theorem State.removeHead_linksSound {rest : List FrameEntry} {s : State}
    (hs : ∀ n : Fin 4, s.links[n].sound = true) (m : Fin 4) :
    (s.removeHead rest).links[m].sound = true := by
  simp only [State.removeHead, State.noteMarkerAtHead_links]
  split
  · rw [State.eachLink_link]
    exact Link.releaseRequest_sound _ (hs m)
  · exact hs m

theorem Act.keeps_links (s t : State) (h : Act s t) (hs : ∀ n : Fin 4, s.links[n].sound = true)
    (m : Fin 4) : t.links[m].sound = true := by
  have hreset : (Vector.replicate 4 (Link.afterReset s.holdTime))[m].sound = true := by
    simpa using Link.afterReset_sound s.holdTime
  cases h with
  | link n l hl => exact State.changeLink_sound hs (hl (hs n)) m
  | links f hf => exact State.eachLink_sound hs hf m
  | boundary kind =>
    rw [State.makeBoundary_links, getElem_ofFn_link]
    exact Link.requestTime_sound _ _ (hs m)
  | offer e => exact State.offerFrame_linksSound hs m
  | remove e rest he ha => exact State.removeHead_linksSound hs m
  | engineClear hr =>
    rw [State.setSweep_links, State.engineClear_links]
    exact hreset
  | restart d =>
    rw [State.resetChannels_links, State.setDevice_links, State.clearWorking_links]
    exact hreset
  | sleep d ha => exact hreset
  | lost => exact resetHasTheInvariants.2.2.2.2.2.1 m
  | pending | port | device | holdTime | attention | latch | clock | subinterval | schedule | holidays
  | channel | start | visited | finished | step | fault | slot | stage | withdraw | repair
  | closeFaulted | vacate | openIn =>
    simpa [State.loadSchedule, State.storeAmendment, State.openIn] using hs m

/-- A channel's agreement reads whether the part is awake, the flow state of its link, and the state
and the timer mode of its record. -/
theorem State.timerAgrees_congr {s t : State} {k : Fin 16} (ha : t.awake = s.awake)
    (hf : t.flowing (linkOf k) = s.flowing (linkOf k))
    (hs : t.channels[k].state = s.channels[k].state)
    (hm : t.channels[k].timerMode = s.channels[k].timerMode) :
    t.timerAgrees k = s.timerAgrees k := by
  simp only [State.timerAgrees, ha, hf, hs, hm]

theorem State.timerAgrees_iff (k : Fin 16) (s : State) :
    s.timerAgrees k = true ↔ (s.awake = true → s.channels[k].state ≠ .unregistered →
      (s.channels[k].timerMode = .frozen ↔ s.flowing (linkOf k) = false)) := by
  simp only [State.timerAgrees, Bool.or_eq_true, Bool.not_eq_true', decide_eq_true_eq, beq_iff_eq]
  cases s.awake <;> cases s.flowing (linkOf k) <;> simp <;> tauto

/-- R80: a reload for a FLOWING link leaves the timer of a registered channel running. -/
theorem reloadTimer_running {c : Channel} (h : (reloadTimer true c).state ≠ .unregistered) :
    (reloadTimer true c).timerMode = .running := by
  rw [reloadTimer_state] at h
  rw [reloadTimer, if_neg h]; rfl

/-- R74: where the link is FLOWING, a timer that runs agrees with it. -/
theorem State.timerAgrees_of_running {s : State} {k : Fin 16}
    (hf : s.links[linkOf k].flow = .flowing)
    (hm : s.channels[k].state ≠ .unregistered → s.channels[k].timerMode = .running) :
    s.timerAgrees k = true := by
  rw [State.timerAgrees_iff]
  intro _ hu
  rw [hm hu, State.flowing, hf]
  decide

/-- An act on one channel keeps every channel's agreement. -/
theorem State.setChannel_keepsTimers {s : State} {j k : Fin 16} {d : Channel}
    (hd : ChannelKept (s.flowing (linkOf j)) s.channels[j] d) (hs : s.timerAgrees k = true) :
    (s.setChannel j d).timerAgrees k = true := by
  rw [State.timerAgrees_iff] at hs ⊢
  rw [State.setChannel_channel, State.setChannel_awake, State.setChannel_flowing]
  split
  · next hk =>
    subst hk
    intro ha hu
    rcases hd.timer hu with h | ⟨hu', h⟩
    · exact h
    · rw [h, hs ha hu']
  · exact hs

/-- The operations on reference counts and slots keep every channel's agreement. -/
theorem State.timerAgrees_of_counts {s t : State} {k : Fin 16} {n : Nat}
    (hd : t.device = s.device) (hl : t.links = s.links) (h : t.channels[k] = { s.channels[k] with referenceCount := n })
    (hs : s.timerAgrees k = true) : t.timerAgrees k = true := by
  rw [State.timerAgrees_congr (State.awake_congr hd) (by rw [State.flowing, State.flowing, hl])
    (by rw [h]) (by rw [h]), hs]

theorem Act.keeps_timers (s t : State) (h : Act s t) (hs : ∀ k : Fin 16, s.timerAgrees k = true)
    (k : Fin 16) : t.timerAgrees k = true := by
  cases h with
  | device x hx =>
    exact (State.timerAgrees_congr (s := s) (t := s.setDevice x) hx rfl rfl rfl).trans (hs k)
  | link n l hl => exact State.changeLink_timerAgrees (hs k)
  | links f hf => exact State.eachLink_timerAgrees (hs k)
  | boundary kind =>
    have hflow : (s.makeBoundary s.clock.time kind).flowing (linkOf k) = s.flowing (linkOf k) := by
      rw [State.flowing, State.makeBoundary_links, getElem_ofFn_link, Link.requestTime_flow,
        State.flowing]
    rw [State.timerAgrees_congr (State.makeBoundary_awake _ _ s) hflow
      (by rw [State.makeBoundary_channels]) (by rw [State.makeBoundary_channels])]
    exact hs k
  | offer e => exact State.offerFrame_timerAgrees e (hs k)
  | remove e rest he ha => exact State.removeHead_timerAgrees rest (hs k)
  | channel j d hd => exact State.setChannel_keepsTimers hd (hs k)
  | engineClear hr =>
    refine State.timerAgrees_of_running (by simp [Link.afterReset]) ?_
    rw [State.setSweep_channels, State.engineClear_channels, getElem_ofFn_channel]
    exact reloadTimer_running
  | restart d =>
    refine State.timerAgrees_of_running (by simp [Link.afterReset]) ?_
    rw [State.resetChannels_channels, getElem_ofFn_channel]
    exact reloadTimer_running
  | sleep d ha =>
    rw [State.timerAgrees_iff]
    intro hawake
    exact absurd hawake (by rw [State.awake_congr (State.dropWorking_device _), ha]; decide)
  | lost =>
    rw [State.timerAgrees_iff, cleared_channel]
    exact fun _ hu => absurd rfl hu
  | start m hr =>
    have hawake : (s.startSweep m).awake = s.awake := State.awake_congr (State.startSweep_device m s)
    rw [State.timerAgrees_congr hawake (by rw [State.flowing, State.startSweep_links, State.flowing])
      (by rw [State.startSweep_channel, sealChannel_state])
      (by rw [State.startSweep_channel, (sealChannel_timer _).1])]
    exact hs k
  | step i hi =>
    exact State.timerAgrees_of_counts (State.boundaryStep_device i s) (State.boundaryStep_links i s)
      (State.boundaryStep_channel i s k) (hs k)
  | stage i image =>
    exact State.timerAgrees_of_counts (State.storeAmendment_device i image s)
      (State.storeAmendment_links i image s) (State.storeAmendment_channel i image s k) (hs k)
  | withdraw i m =>
    refine State.timerAgrees_of_counts (by simp) (by simp)
      (n := countReleased s.channels[k].referenceCount (termsNaming k m.contract.terms)) ?_ (hs k)
    rw [State.setSlot_channels]
    exact State.releaseTerms_channel _ s k
  | repair i c =>
    exact State.timerAgrees_of_counts (State.repair_device i c s) (State.repair_links i c s)
      (State.repair_channel i c s k) (hs k)
  | closeFaulted i =>
    exact State.timerAgrees_of_counts (State.closeFaulted_device i s)
      (State.closeFaulted_links i s) (State.closeFaulted_channel i s k) (hs k)
  | vacate i =>
    exact State.timerAgrees_of_counts (State.vacate_device i s) (State.vacate_links i s)
      (State.vacate_channel i s k) (hs k)
  | openIn i image =>
    exact State.timerAgrees_of_counts (State.openIn_device i image s)
      (State.openIn_links i image s) (State.openIn_channel i image s k) (hs k)
  | pending | port | holdTime | attention | latch | clock | subinterval | schedule | holidays
  | visited | finished | fault | slot => exact hs k

/-- Settles O56, by the acts of a step. -/
theorem linksAndTimersStaySound : Obligations.LinksAndTimersStaySound := fun _ _ =>
  ⟨fun hs hstep => step_keeps (P := fun s => ∀ n : Fin 4, s.links[n].sound = true) Act.keeps_links
      (fun _ _ _ _ _ h => h) hstep hs,
    fun hs hstep => step_keeps (P := fun s => ∀ k : Fin 16, s.timerAgrees k = true) Act.keeps_timers
      (fun _ _ _ _ _ h => h) hstep hs⟩

end Sys2Proof.Machine

/-!
PROOFS. The invariants of the account table: the directory, the account records, the boundaries applied
and the reference counts, each kept by every act and so by every step.
-/

namespace Sys2Proof.Machine

/-! ## Slots -/

theorem getElem_set_slot (v : Vector Account 32) (i j : Fin 32) (a : Account) :
    (v.set i a)[j] = if j = i then a else v[j] := by
  simp only [Fin.getElem_fin, Vector.getElem_set, Fin.ext_iff, eq_comm (a := i.val)]

theorem getElem_ofFn_slot (f : Fin 32 → Account) (i : Fin 32) : (Vector.ofFn f)[i] = f i := by simp

theorem AccountState.occupied_of_swept {x : AccountState} (h : x.swept = true) : x ≠ .vacant := by
  rintro rfl; cases h

/-- The record a boundary step leaves is no VACANT one. -/
theorem State.stepped_occupied {i : Fin 32} {s : State} (h : s.slots[i].state.swept = true) :
    (s.stepped i).state ≠ .vacant := by
  rw [State.stepped]
  split
  · exact State.accountStep_vacant _ _ (AccountState.occupied_of_swept h)
  · simp [faultedRecord]

theorem State.vacant_of_lowestVacant {i : Fin 32} {s : State} (h : s.lowestVacant = some i) :
    s.slots[i].state = .vacant := by
  rw [State.lowestVacant] at h
  simpa only [decide_eq_true_eq] using List.find?_some h

theorem adjustedAccount_state (b : Word) (a : Account) : (adjustedAccount b a).state = a.state := by
  rw [adjustedAccount]; split <;> rfl

theorem State.startSweep_slot_state (i : Fin 32) (m : Marker) (s : State) :
    (s.startSweep m).slots[i].state = s.slots[i].state := by
  rw [State.startSweep_slot]; split <;> rfl

/-! ## O57: the directory -/

theorem State.directorySound_iff (s : State) :
    s.directorySound = true ↔ directoryAscends s.directory = true ∧
      ∀ i : Fin 32, (s.directory.countP fun e => e.slot == i) =
        if s.slots[i].state = .vacant then 0 else 1 := by
  simp [State.directorySound, State.slotListed, slotNumbers]

/-- With the directory sound, a listed slot is occupied. -/
theorem State.occupied_of_listed {i : Fin 32} {s : State} (hd : s.directorySound = true)
    (hl : s.Listed i) : s.slots[i].state ≠ .vacant := by
  intro hv
  obtain ⟨e, he, hslot⟩ := hl
  have hcount := ((State.directorySound_iff s).1 hd).2 i
  rw [if_pos hv, List.countP_eq_zero] at hcount
  exact hcount e he (by simp [hslot])

/-- The directory's soundness reads the directory and which slots are VACANT. -/
theorem State.directorySound_congr {s t : State} (hd : t.directory = s.directory)
    (hv : ∀ i : Fin 32, t.slots[i].state = .vacant ↔ s.slots[i].state = .vacant) :
    t.directorySound = s.directorySound := by
  rw [Bool.eq_iff_iff, State.directorySound_iff, State.directorySound_iff]
  simp only [hd, hv]

/-- An occupied slot that stays occupied. -/
theorem State.directorySound_of_set {s t : State} {i : Fin 32} {b : Account}
    (hs : s.directorySound = true) (hd : t.directory = s.directory) (hl : t.slots = s.slots.set i b)
    (hv : s.slots[i].state ≠ .vacant) (hb : b.state ≠ .vacant) : t.directorySound = true := by
  rw [State.directorySound_congr hd, hs]
  intro j
  rw [hl, getElem_set_slot]
  split
  · next hj => subst hj; exact iff_of_false hb hv
  · rfl

theorem countP_insertEntry (p : DirectoryEntry → Bool) (e : DirectoryEntry)
    (l : List DirectoryEntry) : (insertEntry e l).countP p = (e :: l).countP p := by
  induction l with
  | nil => rfl
  | cons f fs ih =>
    rw [insertEntry]
    split
    · rfl
    · rw [List.countP_cons, ih, List.countP_cons, List.countP_cons, List.countP_cons]
      omega

theorem countP_removeEntry (i j : Fin 32) (l : List DirectoryEntry) :
    (removeEntry i l).countP (fun e => e.slot == j) =
      if j = i then 0 else l.countP fun e => e.slot == j := by
  rw [removeEntry, List.countP_filter]
  split
  · next h => subst h; rw [List.countP_eq_zero]; simp
  · next h =>
    refine List.countP_congr fun e _ => ?_
    simp only [Bool.and_eq_true, beq_iff_eq, bne_iff_ne, and_iff_left_iff_imp]
    rintro rfl
    exact h

theorem State.vacate_directorySound {i : Fin 32} {s : State} (hs : s.directorySound = true) :
    (s.vacate i).directorySound = true := by
  rw [State.directorySound_iff] at hs ⊢
  refine ⟨by rw [State.vacate_directory]; exact removeEntry_ascends i hs.1, fun j => ?_⟩
  rw [State.vacate_directory, countP_removeEntry, State.vacate_slots, getElem_set_slot]
  split
  · rfl
  · exact hs.2 j

theorem State.openIn_directorySound {i : Fin 32} {image : ContractImage} {s : State}
    (hs : s.directorySound = true) (hn : s.lookup image.account = none)
    (hv : s.lowestVacant = some i) : (s.openIn i image).directorySound = true := by
  rw [State.directorySound_iff] at hs ⊢
  refine ⟨?_, fun j => ?_⟩
  · rw [State.openIn_directory]
    exact insertEntry_ascends (State.lookup_none hn) hs.1
  · rw [State.openIn_directory, countP_insertEntry, List.countP_cons, hs.2 j, State.openIn_slots,
      getElem_set_slot]
    by_cases hj : j = i
    · subst hj
      rw [State.vacant_of_lowestVacant hv]
      simp [openingRecord]
    · simp [hj, Ne.symm hj]

theorem Act.keeps_directory (s t : State) (h : Act s t) (hs : s.directorySound = true) :
    t.directorySound = true := by
  cases h with
  | lost => exact resetHasTheInvariants.2.2.2.2.2.2.1
  | start m hr =>
    rw [State.directorySound_congr (State.startSweep_directory m s), hs]
    intro i
    rw [State.startSweep_slot_state]
  | step i hi =>
    exact State.directorySound_of_set hs (State.boundaryStep_directory i s)
      (State.boundaryStep_slots i s) (AccountState.occupied_of_swept hi) (State.stepped_occupied hi)
  | fault i hi =>
    exact State.directorySound_of_set hs (State.enterFaulted_directory i s)
      (State.enterFaulted_slots i s) (AccountState.occupied_of_swept hi) (by simp [faultedRecord])
  | slot i b hl hb =>
    have hv := State.occupied_of_listed hs hl
    exact State.directorySound_of_set (i := i) (b := b) hs (by simp) (by simp) hv (hb hv).1.occupied
  | stage i image hl hb hc =>
    have hv := State.occupied_of_listed hs hl
    exact State.directorySound_of_set hs (State.storeAmendment_directory i image s)
      (State.storeAmendment_slots i image s) hv hv
  | withdraw i m hl ha =>
    have hv := State.occupied_of_listed hs hl
    exact State.directorySound_of_set (i := i) (b := { s.slots[i] with amendment := none }) hs
      (by simp) (by simp) hv hv
  | repair i c hl hc hf =>
    exact State.directorySound_of_set (i := i) (b := s.repaired i c) hs
      (State.repair_directory i c s) (by simp [State.repair_eq])
      (by rw [hf]; decide)
      (by simp [State.repaired])
  | closeFaulted i hl hf =>
    exact State.directorySound_of_set (i := i) (b := s.slots[i].closedFaulted s.clock.time) hs
      (State.closeFaulted_directory i s) (State.closeFaulted_slots i s) (by rw [hf]; decide)
      (by simp [Account.closedFaulted])
  | vacate i hl => exact State.vacate_directorySound hs
  | openIn i image hc hn hv => exact State.openIn_directorySound hs hn hv
  | pending | port | device | holdTime | attention | latch | clock | subinterval | boundary | schedule
  | holidays | link | links | offer | remove | channel | engineClear | restart | sleep | visited
  | finished =>
    rw [State.directorySound_congr, hs] <;> simp [State.loadSchedule]

/-- A storage disturbance of an occupied slot leaves it occupied. -/
theorem State.disturb_directorySound {i : Fin 32} {c : ContractImage} {code : Half} {s : State}
    (hv : s.slots[i].state ≠ .vacant) (hs : s.directorySound = true) :
    (s.setSlot i { s.slots[i] with contract := c, checkCode := code }).directorySound = true :=
  State.directorySound_of_set (i := i)
    (b := { s.slots[i] with contract := c, checkCode := code }) hs (by simp) (by simp) hv hv

/-- Settles O57, by the acts of a step. -/
theorem directoryStaysSound : Obligations.DirectoryStaysSound := fun _ _ hs hstep =>
  step_keeps (P := fun s => s.directorySound = true) Act.keeps_directory
    (fun _ _ _ _ hv h => State.disturb_directorySound hv h) hstep hs

/-! ## O58: the account records -/

/-- The record in a slot: cleared if it is VACANT, and as the rules keep it. -/
structure Account.Sound (a : Account) : Prop where
  vacant : a.vacantSound = true
  kept : a.Kept

theorem Account.sound_iff (a : Account) :
    a.Sound ↔ a.vacantSound = true ∧ a.pendingSound = true ∧ a.snapshotSound = true ∧
      topDescends a.topList = true :=
  ⟨fun h => ⟨h.vacant, h.kept.pending, h.kept.snapshot, h.kept.top⟩,
    fun h => ⟨h.1, h.2.1, h.2.2.1, h.2.2.2⟩⟩

theorem Account.vacantSound_of_occupied {a : Account} (h : a.state ≠ .vacant) :
    a.vacantSound = true := by simp [Account.vacantSound, h]

/-- An occupied record is sound if the rules keep it. -/
theorem Account.sound_of_occupied {a : Account} (h : a.state ≠ .vacant) (hk : a.Kept) : a.Sound :=
  ⟨Account.vacantSound_of_occupied h, hk⟩

theorem Account.cleared_sound : Account.cleared.Sound := by
  rw [Account.sound_iff]; decide

theorem faultedRecord_kept {a : Account} (h : a.Kept) : (faultedRecord a).Kept where
  pending := by rw [Account.pendingSound_iff]; simp [faultedRecord]
  snapshot := rfl
  top := h.top

/-- The flags of a FAULTED account are clear. -/
theorem Account.flags_of_faulted {a : Account} (hf : a.state = .faulted) (h : a.Kept) :
    a.closePending = false ∧ a.suspendPending = false ∧ a.resumePending = false := by
  have hp := (Account.pendingSound_iff a).1 h.pending
  rw [hf] at hp
  simpa using hp

theorem State.repaired_kept {i : Fin 32} {c : ContractImage} {s : State}
    (hf : s.slots[i].state = .faulted) (h : s.slots[i].Kept) : (s.repaired i c).Kept := by
  obtain ⟨hc, hs, hr⟩ := Account.flags_of_faulted hf h
  refine ⟨?_, rfl, trimTop_descends h.top⟩
  rw [Account.pendingSound_iff]
  simp [-Fin.getElem_fin, State.repaired, applied, hc, hs, hr]

theorem Account.closedFaulted_kept {time : CalTime} {a : Account} (hf : a.state = .faulted)
    (h : a.Kept) : (a.closedFaulted time).Kept := by
  obtain ⟨hc, hs, hr⟩ := Account.flags_of_faulted hf h
  refine ⟨?_, rfl, rfl⟩
  rw [Account.pendingSound_iff]
  simp [Account.closedFaulted, closed, hs, hr]

theorem State.stepped_kept {i : Fin 32} {s : State} (h : s.slots[i].Kept) : (s.stepped i).Kept := by
  rw [State.stepped]
  split
  · exact State.accountStep_kept _ _ h
  · exact faultedRecord_kept h

/-- A record as an act leaves it: the old one, the cleared form, or an occupied one that the rules keep
if they kept the old one. -/
def Account.Became (a b : Account) : Prop :=
  b = a ∨ b = Account.cleared ∨ (b.state ≠ .vacant ∧ (a.Kept → b.Kept))

theorem Account.Became.sound {a b : Account} (h : a.Became b) (ha : a.Sound) : b.Sound := by
  rcases h with rfl | rfl | ⟨hv, hk⟩
  · exact ha
  · exact Account.cleared_sound
  · exact Account.sound_of_occupied hv (hk ha.kept)

theorem Account.Became.vacantSound {a b : Account} (h : a.Became b) (ha : a.vacantSound = true) :
    b.vacantSound = true := by
  rcases h with rfl | rfl | ⟨hv, -⟩
  · exact ha
  · exact Account.cleared_sound.vacant
  · exact Account.vacantSound_of_occupied hv

theorem adjustedAccount_became (b : Word) (a : Account) : a.Became (adjustedAccount b a) := by
  rw [adjustedAccount]
  split
  · next hsw =>
    exact .inr (.inr ⟨AccountState.occupied_of_swept hsw, fun h => ⟨h.pending, h.snapshot, h.top⟩⟩)
  · exact .inl rfl

/-- One record replaced. -/
theorem State.became_of_set {s t : State} {i : Fin 32} {b : Account}
    (hl : t.slots = s.slots.set i b) (hb : s.slots[i].Became b) (j : Fin 32) :
    s.slots[j].Became t.slots[j] := by
  rw [hl, getElem_set_slot]
  split
  · next hj => subst hj; exact hb
  · exact .inl rfl

/-- What an act makes of each account record. -/
theorem Act.slot_became {s t : State} (h : Act s t) (hd : s.directorySound = true) (j : Fin 32) :
    s.slots[j].Became t.slots[j] := by
  cases h with
  | lost => exact .inr (.inl (by simp [State.startLost, State.reset]))
  | start m hr =>
    rw [State.startSweep_slots]
    split
    · rw [getElem_ofFn_slot]; exact adjustedAccount_became _ _
    · exact .inl rfl
  | step i hi =>
    exact State.became_of_set (State.boundaryStep_slots i s)
      (.inr (.inr ⟨State.stepped_occupied hi, State.stepped_kept⟩)) j
  | fault i hi =>
    exact State.became_of_set (State.enterFaulted_slots i s)
      (.inr (.inr ⟨by simp [faultedRecord], faultedRecord_kept⟩)) j
  | slot i b hl hb =>
    have hk := (hb (State.occupied_of_listed hd hl)).1
    exact State.became_of_set (State.setSlot_slots i b s) (.inr (.inr ⟨hk.occupied, hk.kept⟩)) j
  | stage i image hl hb hc =>
    exact State.became_of_set (State.storeAmendment_slots i image s)
      (.inr (.inr ⟨State.occupied_of_listed hd hl, fun h => ⟨h.pending, h.snapshot, h.top⟩⟩)) j
  | withdraw i m hl ha =>
    exact State.became_of_set (i := i) (b := { s.slots[i] with amendment := none }) (by simp)
      (.inr (.inr ⟨State.occupied_of_listed hd hl, fun h => ⟨h.pending, h.snapshot, h.top⟩⟩)) j
  | repair i c hl hc hf =>
    exact State.became_of_set (i := i) (b := s.repaired i c) (by simp [State.repair_eq])
      (.inr (.inr ⟨by simp [State.repaired], State.repaired_kept hf⟩)) j
  | closeFaulted i hl hf =>
    exact State.became_of_set (i := i) (b := s.slots[i].closedFaulted s.clock.time)
      (State.closeFaulted_slots i s)
      (.inr (.inr ⟨by simp [Account.closedFaulted], Account.closedFaulted_kept hf⟩)) j
  | vacate i hl => exact State.became_of_set (State.vacate_slots i s) (.inr (.inl rfl)) j
  | openIn i image hc hn hv =>
    exact State.became_of_set (State.openIn_slots i image s)
      (.inr (.inr ⟨by simp [openingRecord], fun _ => ⟨rfl, rfl, rfl⟩⟩)) j
  | pending | port | device | holdTime | attention | latch | clock | subinterval | boundary | schedule
  | holidays | link | links | offer | remove | channel | engineClear | restart | sleep | visited
  | finished => exact .inl (by simp [State.loadSchedule])

theorem State.disturb_became {i : Fin 32} {c : ContractImage} {code : Half} {s : State}
    (hv : s.slots[i].state ≠ .vacant) (j : Fin 32) :
    s.slots[j].Became
      (s.setSlot i { s.slots[i] with contract := c, checkCode := code }).slots[j] :=
  State.became_of_set (i := i) (b := { s.slots[i] with contract := c, checkCode := code })
    (by simp) (.inr (.inr ⟨hv, fun h => ⟨h.pending, h.snapshot, h.top⟩⟩)) j

/-- Settles O58, by the acts of a step; the directory tells that a slot a command reaches is
occupied. -/
theorem accountRecordsStaySound : Obligations.AccountRecordsStaySound := by
  intro s t hd hs hstep i
  have hkeep := step_keeps (P := fun s => s.directorySound = true ∧ ∀ j : Fin 32, s.slots[j].Sound)
    (fun s t h hP => ⟨Act.keeps_directory s t h hP.1, fun j => (h.slot_became hP.1 j).sound (hP.2 j)⟩)
    (fun _ _ _ _ hv hP => ⟨State.disturb_directorySound hv hP.1,
      fun j => (State.disturb_became hv j).sound (hP.2 j)⟩)
    hstep ⟨hd, fun j => (Account.sound_iff _).2 (hs j)⟩
  exact (Account.sound_iff _).1 (hkeep.2 i)

/-! ## O59: the boundaries applied -/

theorem State.boundaryAgrees_iff (i : Fin 32) (s : State) :
    s.boundaryAgrees i = true ↔ (s.slots[i].state.swept = true →
      s.slots[i].lastBoundary = s.sweep.b ∨
        (s.sweep.running = true ∧ s.sweep.nextSlot ≤ i.val ∧
          s.slots[i].lastBoundary = s.sweep.b - 1)) := by
  simp only [State.boundaryAgrees, Bool.or_eq_true, Bool.and_eq_true, Bool.not_eq_true',
    decide_eq_true_eq]
  cases s.slots[i].state.swept <;> simp [and_assoc]

theorem State.boundariesSound_iff (s : State) :
    s.boundariesSound = true ↔
      s.sweep.sound = true ∧ ∀ i : Fin 32, s.boundaryAgrees i = true := by
  simp [State.boundariesSound, slotNumbers]

/-- The held-marker flag and all but slots and sweep are no part of the agreement. -/
theorem State.boundariesSound_congr {s t : State} {b : Bool} (hl : t.slots = s.slots)
    (hw : t.sweep = { s.sweep with heldMarker := b }) : t.boundariesSound = s.boundariesSound := by
  simp only [State.boundariesSound, State.boundaryAgrees, hl, hw, Sweep.sound_held]

/-- One record replaced by one that is not swept, is current for b, or is swept as the old one and
keeps its last boundary. -/
theorem State.boundariesSound_of_set {s t : State} {i : Fin 32} {b : Account}
    (hs : s.boundariesSound = true) (hl : t.slots = s.slots.set i b) (hw : t.sweep = s.sweep)
    (hb : b.state.swept = true → b.lastBoundary = s.sweep.b ∨
      (s.slots[i].state.swept = true ∧ b.lastBoundary = s.slots[i].lastBoundary)) :
    t.boundariesSound = true := by
  rw [State.boundariesSound_iff] at hs ⊢
  refine ⟨hw ▸ hs.1, fun j => ?_⟩
  have hj := (State.boundaryAgrees_iff j s).1 (hs.2 j)
  rw [State.boundaryAgrees_iff, hw, hl, getElem_set_slot]
  split
  · next hji =>
    subst hji
    intro hsw
    rcases hb hsw with h | ⟨h, hlast⟩
    · exact .inl h
    · rw [hlast]; exact hj h
  · exact hj

/-- R106: the records as a sweep starts are current for the new b, or one behind. -/
theorem State.startSweep_boundariesSound {m : Marker} {s : State} (hr : s.sweep.running = false)
    (hs : s.boundariesSound = true) : (s.startSweep m).boundariesSound = true := by
  rw [State.boundariesSound_iff] at hs ⊢
  refine ⟨by rw [State.startSweep_sweep]; rfl, fun i => ?_⟩
  have hi := (State.boundaryAgrees_iff i s).1 (hs.2 i)
  rw [State.boundaryAgrees_iff, State.startSweep_slot_state, State.startSweep_sweep]
  intro hsw
  have hlast : s.slots[i].lastBoundary = s.sweep.b := by
    rcases hi hsw with h | ⟨h, -⟩
    · exact h
    · rw [hr] at h; cases h
  rw [State.startSweep_slot]
  split
  · exact .inr ⟨rfl, Nat.zero_le _, rfl⟩
  · next hgap =>
    have hle : (m.number - s.sweep.b).toNat ≤ 1 := by
      simp only [hsw, and_true] at hgap; omega
    rw [hlast]
    show s.sweep.b = m.number ∨ (true = true ∧ 0 ≤ i.val ∧ s.sweep.b = m.number - 1)
    have : s.sweep.b = m.number ∨ s.sweep.b = m.number - 1 := by bv_omega
    simpa using this

theorem State.stepped_current {i : Fin 32} {s : State} (h : (s.stepped i).state.swept = true) :
    (s.stepped i).lastBoundary = s.sweep.b := by
  rw [State.stepped] at h ⊢
  split at h
  · next hv => rw [if_pos hv, State.accountStep_lastBoundary]
  · cases h

theorem Act.keeps_boundaries (s t : State) (h : Act s t) (hd : s.directorySound = true)
    (hs : s.boundariesSound = true) : t.boundariesSound = true := by
  cases h with
  | lost => exact resetHasTheInvariants.2.2.2.2.2.2.2.2
  | boundary kind =>
    exact (State.boundariesSound_congr (State.makeBoundary_slots _ _ s)
      (State.makeBoundary_sweep _ _ s)).trans hs
  | remove e rest he ha =>
    exact (State.boundariesSound_congr (State.removeHead_slots _ s)
      (State.removeHead_sweep _ s)).trans hs
  | restart d =>
    exact (State.boundariesSound_congr (s := s) (b := false) (by simp) (by simp)).trans hs
  | sleep d ha => exact (State.boundariesSound_congr (s := s) (b := false) (by simp) (by simp)).trans hs
  | engineClear hr =>
    rw [State.boundariesSound_iff] at hs ⊢
    refine ⟨Sweep.sound_idle hr rfl, fun i => ?_⟩
    have hi := (State.boundaryAgrees_iff i s).1 (hs.2 i)
    rw [State.boundaryAgrees_iff, State.setSweep_slots, State.engineClear_slots]
    exact fun hsw => (hi hsw).imp_right fun h => absurd h.1 (by simp [hr])
  | start m hr => exact State.startSweep_boundariesSound hr hs
  | visited i hi hn hr hv =>
    rw [State.boundariesSound_iff] at hs ⊢
    refine ⟨Sweep.sound_running hr (Nat.succ_lt_succ hi), fun j => ?_⟩
    have hj := (State.boundaryAgrees_iff j s).1 (hs.2 j)
    rw [State.boundaryAgrees_iff]
    intro hsw
    by_cases hji : j = i
    · subst hji; exact .inl (hv hsw)
    · refine (hj hsw).imp_right fun h => ⟨h.1, ?_, h.2.2⟩
      have hne : j.val ≠ i.val := fun h => hji (Fin.ext h)
      show i.val + 1 ≤ j.val
      omega
  | finished i hi hn hr hv =>
    rw [State.boundariesSound_iff] at hs ⊢
    refine ⟨Sweep.sound_idle rfl rfl, fun j => ?_⟩
    have hj := (State.boundaryAgrees_iff j s).1 (hs.2 j)
    rw [State.boundaryAgrees_iff]
    intro hsw
    rcases hj hsw with h | ⟨-, hle, -⟩
    · exact .inl h
    · have hji : j = i := Fin.ext (by omega)
      subst hji
      exact .inl (hv hsw)
  | step i hi =>
    exact State.boundariesSound_of_set hs (State.boundaryStep_slots i s) (State.boundaryStep_sweep i s)
      fun h => .inl (State.stepped_current h)
  | fault i hi =>
    exact State.boundariesSound_of_set hs (State.enterFaulted_slots i s) (State.enterFaulted_sweep i s)
      fun h => by cases h
  | slot i b hl hb =>
    have hk := (hb (State.occupied_of_listed hd hl)).1
    exact State.boundariesSound_of_set hs (State.setSlot_slots i b s) rfl
      fun h => .inr ⟨hk.swept h, hk.lastBoundary⟩
  | stage i image hl hb hc =>
    exact State.boundariesSound_of_set hs (State.storeAmendment_slots i image s)
      (State.storeAmendment_sweep i image s) fun h => .inr ⟨h, rfl⟩
  | withdraw i m hl ha =>
    exact State.boundariesSound_of_set (i := i) (b := { s.slots[i] with amendment := none }) hs
      (by simp) (by simp) fun h => .inr ⟨h, rfl⟩
  | repair i c hl hc hf =>
    exact State.boundariesSound_of_set (i := i) (b := s.repaired i c) hs (by simp [State.repair_eq])
      (by simp) fun _ => .inl rfl
  | closeFaulted i hl hf =>
    exact State.boundariesSound_of_set (i := i) (b := s.slots[i].closedFaulted s.clock.time) hs
      (State.closeFaulted_slots i s) (by simp) fun h => by cases h
  | vacate i hl =>
    exact State.boundariesSound_of_set hs (State.vacate_slots i s) (State.vacate_sweep i s)
      fun h => by cases h
  | openIn i image hc hn hv =>
    exact State.boundariesSound_of_set hs (State.openIn_slots i image s)
      (State.openIn_sweep i image s) fun _ => .inl rfl
  | pending | port | device | holdTime | attention | latch | clock | subinterval | schedule | holidays
  | link | links | offer | channel =>
    exact (State.boundariesSound_congr (s := s) (b := s.sweep.heldMarker)
      (by simp [State.loadSchedule]) (by simp [State.loadSchedule])).trans hs

theorem State.disturb_boundariesSound {i : Fin 32} {c : ContractImage} {code : Half} {s : State}
    (hs : s.boundariesSound = true) :
    (s.setSlot i { s.slots[i] with contract := c, checkCode := code }).boundariesSound = true :=
  State.boundariesSound_of_set hs (State.setSlot_slots i _ s) rfl fun h => .inr ⟨h, rfl⟩

/-- Settles O59, by the acts of a step. -/
theorem accountsStayCurrent : Obligations.AccountsStayCurrent := fun _ _ hd hs hstep =>
  (step_keeps (P := fun s => s.directorySound = true ∧ s.boundariesSound = true)
    (fun s t h hP => ⟨Act.keeps_directory s t h hP.1, Act.keeps_boundaries s t h hP.1 hP.2⟩)
    (fun _ _ _ _ hv hP => ⟨State.disturb_directorySound hv hP.1, State.disturb_boundariesSound hP.2⟩)
    hstep ⟨hd, hs⟩).2

end Sys2Proof.Machine

/-!
PROOFS. The reference counts (R97): while no storage disturbance alters a stored feed list, each count
is the number of feed terms that name the channel, and a counted channel is registered.
-/

namespace Sys2Proof.Machine

theorem State.countAgrees_iff (k : Fin 16) (s : State) :
    s.countAgrees k = true ↔
      s.channels[k].referenceCount = termsNaming k s.allTerms ∧
        (s.channels[k].state = .unregistered → s.channels[k].referenceCount = 0) := by
  simp only [State.countAgrees, Bool.and_eq_true, Bool.or_eq_true, beq_iff_eq, decide_eq_true_eq]
  refine and_congr_right fun _ => ?_
  rw [or_iff_not_imp_right, not_not]

/-- The agreement of a count reads the counted terms, the count, and whether the channel is
registered. -/
theorem State.countAgrees_congr {s t : State} {k : Fin 16}
    (hl : termsNaming k t.allTerms = termsNaming k s.allTerms)
    (hc : t.channels[k].referenceCount = s.channels[k].referenceCount)
    (hu : t.channels[k].state = .unregistered → s.channels[k].state = .unregistered) :
    s.countAgrees k = true → t.countAgrees k = true := by
  rw [State.countAgrees_iff, State.countAgrees_iff, hl, hc]
  exact fun h => ⟨h.1, fun hut => h.2 (hu hut)⟩

theorem retimed_referenceCount (was now : Bool) (c : Channel) :
    (retimed was now c).referenceCount = c.referenceCount := by
  rw [retimed]
  split
  · rw [freezeTimer]; split <;> rfl
  · split
    · exact reloadTimer_referenceCount _ _
    · rfl

theorem channelAfterClear_referenceCount (c : Channel) :
    (channelAfterClear c).referenceCount = c.referenceCount := reloadTimer_referenceCount _ _

/-- A reset leaves no channel UNREGISTERED that was registered. -/
theorem channelAfterClear_registered {c : Channel} (h : (channelAfterClear c).state = .unregistered) :
    c.state = .unregistered := by
  rw [channelAfterClear, reloadTimer_state] at h
  dsimp only at h
  split at h
  · cases h
  · exact h

/-- One account record replaced by one with the same counted terms. -/
theorem State.allTerms_of_set {s t : State} {i : Fin 32} {b : Account} (k : Fin 16)
    (hl : t.slots = s.slots.set i b)
    (hb : termsNaming k b.countedTerms = termsNaming k s.slots[i].countedTerms) :
    termsNaming k t.allTerms = termsNaming k s.allTerms := by
  have hset := termsNaming_setSlot k i b s
  rw [State.allTerms_congr (s := t) (t := s.setSlot i b) hl]
  omega

/-- R97: terms released and terms added, where the counted terms change by the same. -/
theorem State.countAgrees_of_change {s t : State} {i : Fin 32} {b : Account} {k : Fin 16} {n : Nat}
    {out : List FeedPlace} (hs : s.countAgrees k = true) (hl : t.slots = s.slots.set i b)
    (hc : t.channels[k] = { s.channels[k] with
      referenceCount := countReleased s.channels[k].referenceCount (termsNaming k out) + n })
    (hout : termsNaming k out + termsNaming k b.countedTerms =
      termsNaming k s.slots[i].countedTerms + n)
    (hle : termsNaming k out ≤ termsNaming k s.slots[i].countedTerms)
    (hn : s.channels[k].state = .unregistered → n = 0) : t.countAgrees k = true := by
  obtain ⟨hcount, hregistered⟩ := (State.countAgrees_iff k s).1 hs
  have hset := termsNaming_setSlot k i b s
  have hall := termsNaming_le_allTerms k i s
  rw [State.countAgrees_iff, hc, State.allTerms_congr (s := t) (t := s.setSlot i b) hl]
  dsimp only
  rw [countReleased_le (by omega)]
  refine ⟨by omega, fun hu => ?_⟩
  have := hregistered hu
  have := hn hu
  omega

/-- R10: an account in a swept state that becomes FAULTED keeps its terms counted. -/
theorem faultedRecord_countedTerms {a : Account} (h : a.state.swept = true) :
    (faultedRecord a).countedTerms = a.countedTerms := by
  rw [Account.countedTerms, Account.countedTerms, if_pos (AccountState.counted_of_swept h)]
  rfl

theorem adjustedAccount_countedTerms (b : Word) (a : Account) :
    (adjustedAccount b a).countedTerms = a.countedTerms := by
  rw [adjustedAccount]; split <;> rfl

theorem State.startSweep_terms (k : Fin 16) (m : Marker) (s : State) :
    termsNaming k (s.startSweep m).allTerms = termsNaming k s.allTerms := by
  rw [termsNaming_allTerms, termsNaming_allTerms]
  refine Finset.sum_congr rfl fun i _ => ?_
  rw [State.startSweep_slots]
  split
  · rw [getElem_ofFn_slot, adjustedAccount_countedTerms]
  · rfl

/-- R97: the counts after a boundary step of an account that passed verification. -/
theorem State.boundaryStep_channel_of_verified {i : Fin 32} {s : State} (h : s.verified i = true)
    (k : Fin 16) :
    (s.boundaryStep i).channels[k] = { s.channels[k] with
      referenceCount := countReleased s.channels[k].referenceCount
        (termsNaming k (s.accountStep s.slots[i]).released) } := by
  rw [State.boundaryStep_of_verified h, State.latchAll_channels, State.releaseTerms_channel,
    State.setSlot_channels]

theorem State.enterFaulted_countAgrees {i : Fin 32} {k : Fin 16} {s : State}
    (hi : s.slots[i].state.swept = true) (hs : s.countAgrees k = true) :
    (s.enterFaulted i).countAgrees k = true :=
  State.countAgrees_congr (s := s)
    (State.allTerms_of_set k (State.enterFaulted_slots i s) (by rw [faultedRecord_countedTerms hi]))
    rfl (fun h => h) hs

theorem State.boundaryStep_countAgrees {i : Fin 32} {k : Fin 16} {s : State}
    (hi : s.slots[i].state.swept = true) (hs : s.countAgrees k = true) :
    (s.boundaryStep i).countAgrees k = true := by
  by_cases hv : s.verified i = true
  · have hterms := State.accountStep_terms s.slots[i] s (AccountState.counted_of_swept hi) k
    refine State.countAgrees_of_change (i := i) (b := (s.accountStep s.slots[i]).account) (n := 0)
      hs ?_ (State.boundaryStep_channel_of_verified hv k) (by omega) (by omega) fun _ => rfl
    rw [State.boundaryStep_slots, State.stepped, if_pos hv]
  · rw [State.boundaryStep_of_not_verified (by simpa using hv)]
    exact State.enterFaulted_countAgrees hi hs

/-! ## The contract check (R15) -/

/-- R15: a contract that passes the check names registered channels alone. -/
theorem State.registered_of_contractCheck {c : ContractImage} {s : State}
    (h : s.contractCheck c = none) : ∀ t ∈ c.terms, s.registered t.channel.toNat = true := by
  rw [State.contractCheck] at h
  split at h
  · cases h
  split at h
  · cases h
  split at h
  · cases h
  split at h
  · cases h
  · next hall => exact List.all_eq_true.1 (not_not.1 hall)

/-- No term of a checked contract names an UNREGISTERED channel. -/
theorem State.termsNaming_of_contractCheck {c : ContractImage} {s : State} {k : Fin 16}
    (h : s.contractCheck c = none) (hu : s.channels[k].state = .unregistered) :
    termsNaming k c.terms = 0 := by
  rw [termsNaming, List.countP_eq_zero]
  intro t ht hk
  have hregistered := State.registered_of_contractCheck h t ht
  rw [beq_iff_eq] at hk
  rw [State.registered, hk, dif_pos k.isLt, decide_eq_true_eq] at hregistered
  exact hregistered hu

/-! ## The commands on accounts -/

theorem Account.countedTerms_eq (a : Account) :
    a.countedTerms = (if a.state.counted then a.contract.terms else []) ++ a.amendmentTerms := rfl

theorem Account.amendmentTerms_of_some {a : Account} {m : Amendment} (h : a.amendment = some m) :
    a.amendmentTerms = m.contract.terms := by rw [Account.amendmentTerms, h]

theorem termsNaming_amendment_le (k : Fin 16) (a : Account) :
    termsNaming k a.amendmentTerms ≤ termsNaming k a.countedTerms := by
  rw [Account.countedTerms_eq, termsNaming_append]; omega

/-- R97: the terms of a held amendment released and those of its successor added. -/
theorem State.countAgrees_of_amendment {s t : State} {i : Fin 32} {b : Account} {k : Fin 16} {n : Nat}
    (hs : s.countAgrees k = true) (hl : t.slots = s.slots.set i b)
    (hst : b.state = s.slots[i].state) (hcontract : b.contract = s.slots[i].contract)
    (hb : termsNaming k b.amendmentTerms = n)
    (hc : t.channels[k] = { s.channels[k] with
      referenceCount :=
        countReleased s.channels[k].referenceCount (termsNaming k s.slots[i].amendmentTerms) + n })
    (hn : s.channels[k].state = .unregistered → n = 0) : t.countAgrees k = true := by
  refine State.countAgrees_of_change hs hl hc ?_ (termsNaming_amendment_le k _) hn
  rw [Account.countedTerms_eq b, Account.countedTerms_eq s.slots[i], hst, hcontract,
    termsNaming_append, termsNaming_append, hb]
  omega

theorem State.storeAmendment_countAgrees {i : Fin 32} {image : ContractImage} {k : Fin 16} {s : State}
    (hc : s.contractCheck image = none) (hs : s.countAgrees k = true) :
    (s.storeAmendment i image).countAgrees k = true :=
  State.countAgrees_of_amendment hs (State.storeAmendment_slots i image s) rfl rfl
    (congrArg (termsNaming k) (ContractImage.stored_terms image))
    (State.storeAmendment_channel i image s k) (State.termsNaming_of_contractCheck hc)

theorem State.withdraw_countAgrees {i : Fin 32} {m : Amendment} {k : Fin 16} {s : State}
    (ha : s.slots[i].amendment = some m) (hs : s.countAgrees k = true) :
    ((s.releaseTerms m.contract.terms).setSlot i
      { s.slots[i] with amendment := none }).countAgrees k = true := by
  refine State.countAgrees_of_amendment (i := i) (b := { s.slots[i] with amendment := none }) (n := 0)
    hs (by simp) rfl rfl rfl ?_ fun _ => rfl
  rw [State.setSlot_channels, Account.amendmentTerms_of_some ha]
  exact State.releaseTerms_channel _ s k

theorem State.vacate_countAgrees {i : Fin 32} {k : Fin 16} {s : State}
    (hs : s.countAgrees k = true) : (s.vacate i).countAgrees k = true := by
  refine State.countAgrees_of_change (n := 0) hs (State.vacate_slots i s)
    (State.vacate_channel i s k) ?_ le_rfl fun _ => rfl
  have hcleared : Account.cleared.countedTerms = [] := rfl
  rw [hcleared, termsNaming_nil]

theorem State.openIn_countAgrees {i : Fin 32} {image : ContractImage} {k : Fin 16} {s : State}
    (hc : s.contractCheck image = none) (hv : s.lowestVacant = some i)
    (hvacant : s.slots[i].vacantSound = true) (hs : s.countAgrees k = true) :
    (s.openIn i image).countAgrees k = true := by
  have hcleared : s.slots[i] = Account.cleared := by
    simpa [-Fin.getElem_fin, Account.vacantSound, State.vacant_of_lowestVacant hv] using hvacant
  have hold : termsNaming k s.slots[i].countedTerms = 0 := by rw [hcleared]; rfl
  have hnew : termsNaming k (openingRecord image s.sweep.b).countedTerms =
      termsNaming k image.terms := by
    have hterms : (openingRecord image s.sweep.b).countedTerms = image.stored.terms ++ [] := rfl
    rw [hterms, List.append_nil, ContractImage.stored_terms]
  refine State.countAgrees_of_change (out := []) hs (State.openIn_slots i image s) ?_ ?_
    (Nat.zero_le _) (State.termsNaming_of_contractCheck hc)
  · rw [State.openIn_channel, termsNaming_nil, countReleased_zero]
  · rw [hnew, hold, termsNaming_nil]

/-- R154: a count set afresh agrees, where no counted term names an UNREGISTERED channel. -/
theorem State.countAgrees_of_recount {s t : State} {i : Fin 32} {b : Account} {k : Fin 16}
    (hs : s.countAgrees k = true) (hl : t.slots = s.slots.set i b)
    (hc : t.channels[k] = { s.channels[k] with
      referenceCount := if s.channels[k].state = .unregistered then 0
        else termsNaming k (s.setSlot i b).allTerms })
    (hle : termsNaming k b.countedTerms ≤ termsNaming k s.slots[i].countedTerms) :
    t.countAgrees k = true := by
  obtain ⟨hcount, hregistered⟩ := (State.countAgrees_iff k s).1 hs
  have hset := termsNaming_setSlot k i b s
  rw [State.countAgrees_iff, hc, State.allTerms_congr (s := t) (t := s.setSlot i b) hl]
  dsimp only
  refine ⟨?_, fun hu => if_pos hu⟩
  split
  · next hu =>
    have := hregistered hu
    omega
  · rfl

/-- R153: the terms counted after a repair are those of the amendment, which were counted before. -/
theorem State.repair_countAgrees {i : Fin 32} {c : ContractImage} {k : Fin 16} {s : State}
    (ha : stagedContract s.slots[i] = some c) (hs : s.countAgrees k = true) :
    (s.repair i c).countAgrees k = true := by
  refine State.countAgrees_of_recount (b := s.repaired i c) hs (by simp [State.repair_eq])
    (State.repair_channel i c s k) ?_
  have hnew : (s.repaired i c).countedTerms = c.terms ++ [] := rfl
  have hle := termsNaming_amendment_le k s.slots[i]
  rw [stagedContract_eq_some] at ha
  rw [Account.amendmentTerms_of_some ha] at hle
  rwa [hnew, List.append_nil]

theorem State.closeFaulted_countAgrees {i : Fin 32} {k : Fin 16} {s : State}
    (hs : s.countAgrees k = true) : (s.closeFaulted i).countAgrees k = true := by
  refine State.countAgrees_of_recount (b := s.slots[i].closedFaulted s.clock.time) hs
    (State.closeFaulted_slots i s) (State.closeFaulted_channel i s k) ?_
  have hnew : (s.slots[i].closedFaulted s.clock.time).countedTerms = [] := rfl
  rw [hnew, termsNaming_nil]
  exact Nat.zero_le _

/-! ## O60 -/

theorem Act.keeps_counts (s t : State) (h : Act s t)
    (hd : s.directorySound = true) (hv : ∀ i : Fin 32, s.slots[i].vacantSound = true)
    (hs : ∀ k : Fin 16, s.countAgrees k = true) (k : Fin 16) : t.countAgrees k = true := by
  cases h with
  | link n l hl =>
    refine State.countAgrees_congr (by rw [State.allTerms_congr (State.changeLink_slots n l s)])
      ?_ ?_ (hs k) <;> rw [State.changeLink_channel]
    · split
      · exact retimed_referenceCount _ _ _
      · rfl
    · split
      · rw [retimed_state]; exact id
      · exact id
  | links f hf =>
    exact State.countAgrees_congr (by rw [State.allTerms_congr (State.eachLink_slots f s)])
      (by rw [State.eachLink_channel, retimed_referenceCount])
      (by rw [State.eachLink_channel, retimed_state]; exact id) (hs k)
  | offer e =>
    exact State.countAgrees_congr (by rw [State.allTerms_congr (State.offerFrame_slots e s)])
      (by rw [State.offerFrame_channel, retimed_referenceCount])
      (by rw [State.offerFrame_channel, retimed_state]; exact id) (hs k)
  | remove e rest he ha =>
    exact State.countAgrees_congr (by rw [State.allTerms_congr (State.removeHead_slots rest s)])
      (by rw [State.removeHead_channel, retimed_referenceCount])
      (by rw [State.removeHead_channel, retimed_state]; exact id) (hs k)
  | channel j d hk =>
    have hall : (s.setChannel j d).allTerms = s.allTerms := State.allTerms_congr rfl
    have hcount := (State.countAgrees_iff j s).1 (hs j)
    rw [State.countAgrees_iff, State.setChannel_channel, hall]
    split
    · next hkj =>
      subst hkj
      have hzero : s.channels[k].state = .unregistered → s.channels[k].referenceCount = 0 := hcount.2
      rcases hk.count with hsame | ⟨hu, hz⟩
      · exact ⟨by rw [hsame, hcount.1], fun hd => by
          rw [hsame]; exact (hk.registration hd).elim hzero id⟩
      · exact ⟨by rw [hz, ← hcount.1, hzero hu], fun _ => hz⟩
    · exact (State.countAgrees_iff k s).1 (hs k)
  | engineClear hr =>
    refine State.countAgrees_congr ?_ ?_ ?_ (hs k)
    · rw [State.allTerms_congr (t := s) (by simp)]
    · rw [State.setSweep_channels, State.engineClear_channels, getElem_ofFn_channel,
        channelAfterClear_referenceCount]
    · rw [State.setSweep_channels, State.engineClear_channels, getElem_ofFn_channel]
      exact channelAfterClear_registered
  | restart d =>
    refine State.countAgrees_congr ?_ ?_ ?_ (hs k)
    · rw [State.allTerms_congr (t := s) (by simp)]
    · rw [State.resetChannels_channels, getElem_ofFn_channel]
      exact channelAfterClear_referenceCount _
    · rw [State.resetChannels_channels, getElem_ofFn_channel]
      exact channelAfterClear_registered
  | lost => exact (resetHasTheInvariants.2.2.2.2.1 k).2.2
  | start m hr =>
    exact State.countAgrees_congr (State.startSweep_terms k m s)
      (by rw [State.startSweep_channel, sealChannel_referenceCount])
      (by rw [State.startSweep_channel, sealChannel_state]; exact id) (hs k)
  | step i hi => exact State.boundaryStep_countAgrees hi (hs k)
  | fault i hi => exact State.enterFaulted_countAgrees hi (hs k)
  | slot i b hl hb =>
    have hterms := (hb (State.occupied_of_listed hd hl)).2
    exact State.countAgrees_congr (s := s)
      (State.allTerms_of_set k (State.setSlot_slots i b s) (by rw [hterms])) rfl (fun h => h) (hs k)
  | stage i image hl hb hc => exact State.storeAmendment_countAgrees hc (hs k)
  | withdraw i m hl ha => exact State.withdraw_countAgrees ha (hs k)
  | repair i c hl hc hf => exact State.repair_countAgrees hc (hs k)
  | closeFaulted i hl hf => exact State.closeFaulted_countAgrees (hs k)
  | vacate i hl => exact State.vacate_countAgrees (hs k)
  | openIn i image hc hn hl => exact State.openIn_countAgrees hc hl (hv i) (hs k)
  | boundary kind =>
    exact State.countAgrees_congr (by rw [State.allTerms_congr (State.makeBoundary_slots _ _ s)])
      (by rw [State.makeBoundary_channels]) (by rw [State.makeBoundary_channels]; exact id) (hs k)
  | pending | port | device | holdTime | attention | latch | clock | subinterval | schedule | holidays
  | sleep | visited | finished => exact hs k

/-- Settles O60, by the acts of a step; the directory and the cleared form of VACANT slots are kept
along. -/
theorem referenceCountsStayExact : Obligations.ReferenceCountsStayExact := by
  intro s t hd hv hs hpending hstep
  rcases step_acts hstep with hacts | ⟨i, c, code, rest, hfront, -⟩
  · exact (hacts.keep (P := fun s => s.directorySound = true ∧
        (∀ i : Fin 32, s.slots[i].vacantSound = true) ∧ ∀ k : Fin 16, s.countAgrees k = true)
      (fun s t h hP => ⟨Act.keeps_directory s t h hP.1,
        fun i => (h.slot_became hP.1 i).vacantSound (hP.2.1 i),
        Act.keeps_counts s t h hP.1 hP.2.1 hP.2.2⟩) ⟨hd, hv, hs⟩).2.2
  · exact absurd hfront (hpending i c code rest)

end Sys2Proof.Machine

/-!
PROOFS. The request port and its encoding (R172 to R177): what each transaction does in each port state,
the judgement of a request message over the command code table, and the composed response.
-/

namespace Sys2Proof.Machine

/-! ## Commands that act -/

/-- Asked of every block: a command whose act can be made is its act, its answer put in the port. -/
theorem exec_of_accepts {c : Instr} {act : State → State × Response} {s : State}
    {r : State × Response} (he : exec c s = .next (s.request c act)) (h : s.accepts c = true)
    (hr : act s = r) : exec c s = .next (answer r) := by
  rw [he, State.request_of_accepts h, hr]

/-- Settles O1, by the equation of the step on a queue that is not empty. -/
theorem stepRunsTheCommandInFront : Obligations.StepRunsTheCommandInFront := fun _ _ _ => rfl

/-! ## Transactions -/

theorem exec_send_of_awake {m : List Byte} {s : State} (h : s.awake = true) :
    exec (.sendTransaction m) s = .next (s.send m) := congrArg _ (if_pos h)

theorem exec_read_of_awake {n : Nat} {s : State} (h : s.awake = true) :
    exec (.readTransaction n) s = .next (s.read n) := congrArg _ (if_pos h)

theorem exec_void_of_awake {code : Option Byte} {n : Nat} {s : State} (h : s.awake = true) :
    exec (.voidTransaction code n) s = .next (s.void code n) := congrArg _ (if_pos h)

/-- R172: the port byte of a known port state stands before the bytes shifted out. -/
theorem State.shiftOut_of_state {p : PortState} {bytes : List Byte} {s : State}
    (h : s.port.state = p) : s.shiftOut bytes = { s with port := ⟨p, p.byte :: bytes⟩ } := by
  subst h
  rfl

/-- Settles O2, by the port state. -/
theorem sendIsTakenUnlessExecuting : Obligations.SendIsTakenUnlessExecuting := by
  intro m s ha
  refine ⟨fun h => ?_, fun r h => ?_, fun e h => ?_⟩ <;>
    · rw [exec_send_of_awake ha, State.send, h, State.shiftOut_of_state h]
      rfl

/-- R177: the response, then zeros, cut to the bytes clocked. -/
theorem take_append_zeroBytes {l : List Byte} {n : Nat} (h : l.length ≤ n) :
    (l ++ zeroBytes n).take n = l ++ List.replicate (n - l.length) 0 := by
  rw [List.take_append, List.take_of_length_le h, zeroBytes, List.take_replicate,
    Nat.min_eq_left (Nat.sub_le _ _)]

/-- R177: fewer bytes clocked than the response has show its beginning. -/
theorem take_append_zeroBytes_of_lt {l : List Byte} {n : Nat} (h : n < l.length) :
    (l ++ zeroBytes n).take n = l.take n := List.take_append_of_le_length h.le

theorem State.read_whole {n : Nat} {r : Response} {s : State}
    (h : s.port.state = .responseReady r) (hn : r.bytes.length ≤ n) :
    s.read n = { s with port :=
      ⟨.idle, 0xE2 :: (r.bytes ++ List.replicate (n - r.bytes.length) 0)⟩ } := by
  rw [State.read, h]
  dsimp only
  rw [if_pos hn, take_append_zeroBytes hn, State.shiftOut_of_state h]
  rfl

theorem State.read_part {n : Nat} {r : Response} {s : State}
    (h : s.port.state = .responseReady r) (hn : n < r.bytes.length) :
    s.read n = { s with port := ⟨.responseReady r, 0xE2 :: r.bytes.take n⟩ } := by
  rw [State.read, h]
  dsimp only
  rw [if_neg (by omega), take_append_zeroBytes_of_lt hn, State.shiftOut_of_state h]
  rfl

/-- Settles O5, by the port state and the number of bytes clocked. -/
theorem readShiftsOutTheResponse : Obligations.ReadShiftsOutTheResponse := by
  intro n s ha
  simp only [exec_read_of_awake ha, exec_void_of_awake ha]
  refine ⟨fun _ => rfl, rfl, fun r h hn => by rw [State.read_whole h hn],
    fun r h hn => by rw [State.read_part h hn], fun h => ?_, fun e h => ?_⟩ <;>
    · rw [State.read, h]
      dsimp only
      rw [State.shiftOut_of_state h]
      rfl

/-- Settles O6: the port's end of an execution, and the segments of short and of long data. -/
theorem executionEndsWithTheResponse : Obligations.ExecutionEndsWithTheResponse := by
  refine ⟨fun r s ha h => ?_, fun _ => Response.segments_short, fun _ => Response.segments_long⟩
  have he : exec .executionEnds s = .next s.endExecution := congrArg _ (if_pos ha)
  rw [he, State.endExecution, h]
  rfl

/-! ## The judgement of a message (R175) -/

theorem halfBytes_injective {a b : Half} (h : halfBytes a = halfBytes b) : a = b := by
  injection h with hhi htail
  injection htail with hlo _
  rw [← halfOf_halfBytes a, ← halfOf_halfBytes b, hhi, hlo]

/-- Check 1: the length of a message. -/
theorem judgeRequest_badLength {m : List Byte} (h : m.length < 4 ∨ 256 < m.length) :
    judgeRequest m = .acted ⟨.badFrame, []⟩ := by
  rw [judgeRequest.eq_def]
  split
  · rw [if_pos (by tauto)]
    rfl
  · rfl

/-- Check 1: the count of operand bytes. -/
theorem judgeRequest_badCount {code n : Byte} {rest : List Byte}
    (h : n.toNat + 4 ≠ rest.length + 2) :
    judgeRequest (code :: n :: rest) = .acted ⟨.badFrame, []⟩ := by
  rw [judgeRequest, if_pos (.inr (.inr h))]
  rfl

theorem toNat_u8 {n : Nat} (h : n ≤ 255) : (u8 n).toNat = n := by
  rw [u8, BitVec.toNat_ofNat]
  omega

/-- Check 2: the CRC of a message. -/
theorem judgeRequest_badCrc {code : Byte} {ops : List Byte} {crc : Half} (h : ops.length ≤ 252)
    (hc : crc ≠ crc16 (code :: u8 ops.length :: ops)) :
    judgeRequest (code :: u8 ops.length :: ops ++ halfBytes crc) = .acted ⟨.badFrame, []⟩ := by
  have hn : (u8 ops.length).toNat = ops.length := toNat_u8 (by omega)
  simp only [List.cons_append, judgeRequest, hn, List.take_left, List.drop_left]
  split
  · rfl
  · rw [if_pos fun he => hc (halfBytes_injective he)]
    rfl

/-! ## The command code table (R175 checks 3 and 4) -/

/-- A decoder takes operands of `least` to `greatest` bytes and refuses any other length. -/
def Allows (decode : List Byte → Decoded) (least greatest : Nat) : Prop :=
  ∀ ops : List Byte,
    (ops.length < least ∨ greatest < ops.length → decode ops = .badLength) ∧
    (least ≤ ops.length → ops.length ≤ greatest → ∃ c, decode ops = .command c)

/-- A decoder that refuses every length but one allows just that length. -/
theorem allows_of_length {decode : List Byte → Decoded} {n : Nat}
    (hbad : ∀ ops, ops.length ≠ n → decode ops = .badLength)
    (hok : ∀ ops, ops.length = n → ∃ c, decode ops = .command c) : Allows decode n n :=
  fun ops => ⟨fun h => hbad ops (by omega), fun hl hg => hok ops (by omega)⟩

theorem decodeNone_allows (c : Instr) : Allows (decodeNone c) 0 0 :=
  allows_of_length
    (fun
      | [], h => absurd rfl h
      | _ :: _, _ => rfl)
    (fun
      | [], _ => ⟨_, rfl⟩)

theorem decodeByte_allows (f : Byte → Instr) : Allows (decodeByte f) 1 1 :=
  allows_of_length (fun ops h => by rw [decodeByte.eq_def]; split <;> simp_all)
    (fun
      | [_], _ => ⟨_, rfl⟩)

theorem decodeHalf_allows (f : Half → Instr) : Allows (decodeHalf f) 2 2 :=
  allows_of_length (fun ops h => by rw [decodeHalf.eq_def]; split <;> simp_all)
    (fun
      | [_, _], _ => ⟨_, rfl⟩)

theorem decodeWord_allows (f : Word → Instr) : Allows (decodeWord f) 4 4 :=
  allows_of_length (fun ops h => by rw [decodeWord.eq_def]; split <;> simp_all)
    (fun
      | [_, _, _, _], _ => ⟨_, rfl⟩)

theorem decodeWordByte_allows (f : Word → Byte → Instr) : Allows (decodeWordByte f) 5 5 :=
  allows_of_length (fun ops h => by rw [decodeWordByte.eq_def]; split <;> simp_all)
    (fun
      | [_, _, _, _, _], _ => ⟨_, rfl⟩)

theorem decodeClock_allows (f : TimeImage → Byte → Instr) : Allows (decodeClock f) 7 7 :=
  allows_of_length (fun ops h => by rw [decodeClock.eq_def]; split <;> simp_all)
    (fun
      | [_, _, _, _, _, _, _], _ => ⟨_, rfl⟩)

theorem decodePolicy_allows (f : Byte → Byte → Byte → Word → Instr) :
    Allows (decodePolicy f) 7 7 :=
  allows_of_length (fun ops h => by rw [decodePolicy.eq_def]; split <;> simp_all)
    (fun
      | [_, _, _, _, _, _, _], _ => ⟨_, rfl⟩)

theorem decodeMeter_allows (f : Byte → Quantity → Word → Instr) : Allows (decodeMeter f) 11 11 :=
  allows_of_length (fun ops h => by rw [decodeMeter.eq_def]; split <;> simp_all)
    (fun
      | [_, _, _, _, _, _, _, _, _, _, _], _ => ⟨_, rfl⟩)

theorem decodeLoad_allows (f : Byte → List Byte → Instr) : Allows (decodeLoad f) 25 109
  | [] => ⟨fun _ => rfl, fun h => absurd h (by decide)⟩
  | slot :: body => by
    constructor <;> intros
    · exact if_neg (by simp_all; omega)
    · exact ⟨_, if_pos (by simp_all; omega)⟩

theorem decodeHolidays_allows (f : Byte → List Byte → Instr) : Allows (decodeHolidays f) 1 73
  | [] => ⟨fun _ => rfl, fun h => absurd h (by decide)⟩
  | count :: body => by
    constructor <;> intros
    · exact if_neg (by simp_all; omega)
    · exact ⟨_, if_pos (by simp_all; omega)⟩

theorem decodeDismiss_allows (f : Half → Option Byte → Instr) : Allows (decodeDismiss f) 2 3
  | [] | [_] | _ :: _ :: _ :: _ :: _ =>
    ⟨fun _ => rfl, fun hl hg => by simp only [List.length_cons, List.length_nil] at hl hg; omega⟩
  | [_, _] | [_, _, _] => ⟨fun h => by simp at h, fun _ _ => ⟨_, rfl⟩⟩

/-- The 33 bytes of an image are always one. -/
theorem contractOf_isSome {ops : List Byte} (h : ops.length = 33) :
    ∃ c, contractOf ops = some c := by
  repeat
    obtain ⟨_, rest, rfl, hrest⟩ := exists_cons h
    clear h
    rename' hrest => h
  obtain rfl := List.length_eq_zero_iff.mp h
  exact ⟨_, rfl⟩

theorem decodeContract_allows (f : ContractImage → Instr) : Allows (decodeContract f) 33 33 :=
  allows_of_length (fun ops h => by rw [decodeContract, contractOf_eq_none h])
    (fun ops h => by
      obtain ⟨c, hc⟩ := contractOf_isSome h
      exact ⟨f c, by rw [decodeContract, hc]⟩)

theorem decodeAmendment_allows (f : Word → ContractImage → Instr) :
    Allows (decodeAmendment f) 37 37 :=
  allows_of_length
    (fun
      | [], _ | [_], _ | [_, _], _ | [_, _, _], _ => rfl
      | _ :: _ :: _ :: _ :: rest, h => by
        rw [decodeAmendment, contractOf_eq_none (by simpa using h)])
    (fun
      | _ :: _ :: _ :: _ :: rest, h => by
        obtain ⟨c, hc⟩ := contractOf_isSome (ops := rest) (by simpa using h)
        exact ⟨_, by rw [decodeAmendment, hc]⟩)

/-- The table of 10.5, row by row. -/
theorem decodeRequest_allows :
    ∀ x ∈ operandLengths, Allows (decodeRequest x.1) x.2.1 x.2.2 := by
  unfold operandLengths
  simp only [List.cons_append, List.nil_append, List.forall_mem_cons]
  exact ⟨decodeNone_allows _, decodeNone_allows _, decodeClock_allows _, decodeNone_allows _,
    decodeHalf_allows _, decodeLoad_allows _, decodeByte_allows _, decodeHolidays_allows _,
    decodeNone_allows _, decodeByte_allows _, decodeNone_allows _, decodeMeter_allows _,
    decodeByte_allows _, decodePolicy_allows _, decodeByte_allows _, decodeContract_allows _,
    decodeWord_allows _, decodeWord_allows _, decodeWordByte_allows _, decodeWord_allows _,
    decodeNone_allows _, decodeWord_allows _, decodeWord_allows _, decodeAmendment_allows _,
    decodeWordByte_allows _, decodeWord_allows _, decodeWord_allows _, decodeWord_allows _,
    decodeWord_allows _, decodeNone_allows _, decodeDismiss_allows _, decodeHalf_allows _,
    decodeByte_allows _, fun _ h => nomatch h⟩

/-- Check 3: a code that is not in the table. -/
theorem decodeRequest_unknown {code : Byte} (ops : List Byte)
    (h : code ∉ operandLengths.map Prod.fst) : decodeRequest code ops = .unknownCommand := by
  have hinj : Function.Injective (BitVec.toNat (w := 8)) := fun _ _ => BitVec.eq_of_toNat_eq
  rw [← List.mem_map_of_injective hinj] at h
  simp [operandLengths] at h
  rw [decodeRequest.eq_def]
  split
  case h_34 => rfl
  all_goals omega

/-- Settles O3, check by check. -/
theorem requestIsJudged : Obligations.RequestIsJudged :=
  ⟨fun _ => judgeRequest_badLength, fun _ _ _ => judgeRequest_badCount,
    fun _ _ _ => judgeRequest_badCrc, fun _ _ => judgeRequest_envelope, decodeRequest_allows,
    fun _ => decodeRequest_unknown⟩

/-! ## The message that spells a command -/

/-- A command is decoded from at most 109 operand bytes. -/
theorem length_le_of_decoded {code : Byte} {ops : List Byte} {c : Instr}
    (h : decodeRequest code ops = .command c) : ops.length ≤ 109 := by
  by_contra hl
  have hmem : code ∈ operandLengths.map Prod.fst := by
    by_contra hn
    rw [decodeRequest_unknown ops hn] at h
    cases h
  obtain ⟨x, hx, rfl⟩ := List.mem_map.mp hmem
  have hgreatest : ∀ x ∈ operandLengths, x.2.2 ≤ 109 := by decide
  have := hgreatest x hx
  rw [(decodeRequest_allows x hx ops).1 (.inr (by omega))] at h
  cases h

section
variable (a : Word) (h : Half) (q : Quantity) (c : ContractImage)

theorem decodeHalf_halfBytes (f : Half → Instr) : decodeHalf f (halfBytes h) = .command (f h) := by
  rw [halfBytes, decodeHalf, halfOf_halfBytes]

theorem decodeWord_wordBytes (f : Word → Instr) : decodeWord f (wordBytes a) = .command (f a) := by
  rw [wordBytes, decodeWord, wordOf_wordBytes]

theorem decodeWordByte_wordBytes (f : Word → Byte → Instr) (b : Byte) :
    decodeWordByte f (wordBytes a ++ [b]) = .command (f a b) := by
  rw [wordBytes, List.cons_append, List.cons_append, List.cons_append, List.cons_append,
    List.nil_append, decodeWordByte, wordOf_wordBytes]

theorem decodeMeter_quantityBytes (f : Byte → Quantity → Word → Instr) (k : Byte) :
    decodeMeter f (k :: (quantityBytes q ++ wordBytes a)) = .command (f k q a) := by
  rw [quantityBytes, wordBytes]
  simp only [List.cons_append, List.nil_append, decodeMeter, quantityOf_quantityBytes,
    wordOf_wordBytes]

theorem decodePolicy_wordBytes (f : Byte → Byte → Byte → Word → Instr) (k p t : Byte) :
    decodePolicy f (k :: p :: t :: wordBytes a) = .command (f k p t a) := by
  rw [wordBytes, decodePolicy, wordOf_wordBytes]

theorem decodeContract_contractBytes (f : ContractImage → Instr) :
    decodeContract f (contractBytes c) = .command (f c) := by
  rw [decodeContract, contractOf_contractBytes]

theorem decodeAmendment_contractBytes (f : Word → ContractImage → Instr) :
    decodeAmendment f (wordBytes a ++ contractBytes c) = .command (f a c) := by
  rw [wordBytes, List.cons_append, List.cons_append, List.cons_append, List.cons_append,
    List.nil_append, decodeAmendment, contractOf_contractBytes, wordOf_wordBytes]

theorem decodeDismiss_halfBytes (f : Half → Option Byte → Instr) :
    ∀ source : Option Byte,
      decodeDismiss f (halfBytes h ++ source.toList) = .command (f h source)
  | none => by rw [halfBytes, Option.toList_none, List.append_nil, decodeDismiss, halfOf_halfBytes]
  | some b => by
    rw [halfBytes, Option.toList_some, List.cons_append, List.cons_append, List.nil_append,
      decodeDismiss, halfOf_halfBytes]

end

/-- The operands of a well-formed command decode to it. -/
theorem decodeRequest_requestOf {c : Instr} {code : Byte} {ops : List Byte} (hw : c.wf = true)
    (h : requestOf c = some (code, ops)) : decodeRequest code ops = .command c := by
  cases c with
  | sendTransaction | readTransaction | voidTransaction | executionEnds | powerOn | mainPowerLoss
  | backupSupplyLoss | resetPinAsserted | resetPinReleased | storageDisturbance | secondPulseEdge
  | internalSecond | pulseLossFallback | frameReceived | idleGap | lineReturnsToMarking
  | lineBreak | transmissionComplete | refreshPoint | holdExpiry | presenceTimerExpiry
  | takeFrameEntry | takeMarker | sweepVisit | characterReceived | outageSecondAdvance => cases h
  | readIdentity | engineClear | setClock | readClock | readSchedule | readHolidays | setHoldTime
  | readLinks | releaseMeter | readChannel | readSweep | takeAttention | readAttention =>
    cases h
    rfl
  | setSubinterval | setAttentionMask =>
    cases h
    exact decodeHalf_halfBytes _ _
  | listAccounts | readAccount | readPeaks | closePeriod | fetchClosed | withdrawAmendment
  | suspendAccount | resumeAccount | retireAccount =>
    cases h
    exact decodeWord_wordBytes _ _
  | readRegisters | commitAmendment =>
    cases h
    exact decodeWordByte_wordBytes _ _ _
  | loadSchedule slot body =>
    cases h
    exact if_pos (by simpa [Instr.wf] using hw)
  | loadHolidays count body =>
    cases h
    exact if_pos (by simpa [Instr.wf] using hw)
  | registerMeter =>
    cases h
    exact decodeMeter_quantityBytes _ _ _ _
  | setChannelPolicy =>
    cases h
    exact decodePolicy_wordBytes _ _ _ _ _
  | openAccount =>
    cases h
    exact decodeContract_contractBytes _ _
  | stageAmendment =>
    cases h
    exact decodeAmendment_contractBytes _ _ _
  | dismiss =>
    cases h
    exact decodeDismiss_halfBytes _ _ _

/-- Settles O4, from the decoding of each command's own operands. -/
theorem spelledRequestIsDispatched : Obligations.SpelledRequestIsDispatched := by
  intro c m hw hm
  obtain ⟨⟨code, ops⟩, hr, rfl⟩ := Option.map_eq_some_iff.mp hm
  have hd := decodeRequest_requestOf hw hr
  have hl := length_le_of_decoded hd
  dsimp only
  rw [length_envelope, judgeRequest_envelope (by omega), hd]
  exact ⟨by omega, rfl⟩

end Sys2Proof.Machine

/-!
PROOFS. Power, retention, start-up, storage and ENGINE CLEAR (R21, R183 to R189).
-/

namespace Sys2Proof.Machine

/-! ## Power-on with retention lost (R187) -/

/-- Settles O7, on the model's state after reset. -/
theorem powerOnWithRetentionLost : Obligations.PowerOnWithRetentionLost := by
  refine ⟨fun s hm hv => ?_, fun i => ?_, rfl, fun k => ?_, rfl, fun k => ?_, rfl, rfl, rfl, rfl,
    rfl, rfl, rfl, rfl, rfl, rfl, rfl, rfl⟩
  · show Host.Outcome.next _ = _
    rw [hm, hv]
    rfl
  · exact Vector.getElem_replicate _
  · exact Vector.getElem_replicate _
  · rw [show State.reset.channels[k] = Channel.cleared from Vector.getElem_replicate _]
    exact ⟨rfl, rfl⟩

/-! ## Start-up over retained state (R184 to R186) -/

/-- R103: was-silent is set, the timer runs in full, and what was timed and counted is gone. -/
theorem channelAfterRestart_eq (c : Channel) : channelAfterRestart c = restartedChannel c := by
  unfold channelAfterRestart channelAfterClear reloadTimer restartedChannel
  cases hs : c.state <;> simp

/-- The state of a start before the outage boundary is judged (R184 steps 1 to 4). -/
def State.restarted (cause : ResetCause) (s : State) : State :=
  (s.clearWorking.setDevice (s.device.started cause)).resetChannels channelAfterRestart

theorem State.startUp_eq (cause : ResetCause) (s : State) :
    s.startUp cause = (s.restarted cause).outageBoundary := rfl

section
variable (cause : ResetCause) (s : State)

@[simp] theorem State.restarted_clock : (s.restarted cause).clock = s.clock.afterStart := by
  simp [State.restarted]

@[simp] theorem State.restarted_sweep :
    (s.restarted cause).sweep = { s.sweep with heldMarker := false } := by simp [State.restarted]

@[simp] theorem State.restarted_queue : (s.restarted cause).queue = IntakeQueue.empty := by
  simp [State.restarted]

@[simp] theorem State.restarted_holdTime : (s.restarted cause).holdTime = s.holdTime := by
  simp [State.restarted]

@[simp] theorem State.restarted_links :
    (s.restarted cause).links = Vector.replicate 4 (Link.afterReset s.holdTime) := by
  simp [State.restarted]

theorem State.mem_restarted (q : AttnPair) :
    q ∈ (s.restarted cause).attention.pendingSet ↔
      ∃ k : Fin 16, s.channels[k].state = .live ∧ q = ⟨.channelSilent, k⟩ := by
  simp [State.restarted, State.mem_resetChannels, Attention.afterStart]

theorem State.restarted_outageCalls : (s.restarted cause).outageCalls = true ↔ calledFor s := by
  simp [State.outageCalls, calledFor, Clock.afterStart]

/-- R185: a start that is not called to a boundary. -/
theorem State.startUp_of_not_called (h : ¬calledFor s) :
    s.startUp cause = s.restarted cause := by
  rw [State.startUp_eq, State.outageBoundary,
    if_neg fun hc => h ((State.restarted_outageCalls cause s).mp hc)]

/-- R185: a start that is called to a boundary. -/
theorem State.startUp_of_called (h : calledFor s) :
    s.startUp cause =
      ((s.restarted cause).latch .clockIrregular 0).makeBoundary s.clock.time .irregular := by
  rw [State.startUp_eq, State.outageBoundary, if_pos ((State.restarted_outageCalls cause s).mpr h),
    State.restarted_clock]
  rfl

end

/-- R70: a TIME request begins at once on a transmitter fresh from a reset. -/
theorem Link.requestTime_afterReset (h n : Nat) (r : TimeRequest) :
    (Link.afterReset n).requestTime h r = { Link.afterReset n with transmitter := .sendingTime r } :=
  rfl

theorem State.startUp_links_called (cause : ResetCause) (s : State) (h : calledFor s) (n : Fin 4) :
    (s.startUp cause).links[n] = { Link.afterReset s.holdTime with
      transmitter := .sendingTime ⟨s.clock.time, (s.clock.boundaryNumber + 1).setWidth 8⟩ } := by
  rw [State.startUp_of_called cause s h, State.makeBoundary_links, getElem_ofFn_link]
  simp only [State.latch_links, State.latch_holdTime, State.latch_clock, State.restarted_links,
    State.restarted_holdTime, State.restarted_clock]
  rw [show (Vector.replicate 4 (Link.afterReset s.holdTime))[n] = _ from
    Vector.getElem_replicate _]
  rfl

theorem State.startUp_links_not_called (cause : ResetCause) (s : State) (h : ¬calledFor s)
    (n : Fin 4) : (s.startUp cause).links[n] = Link.afterReset s.holdTime := by
  rw [State.startUp_of_not_called cause s h, State.restarted_links]
  exact Vector.getElem_replicate _

theorem State.mem_startUp_called (cause : ResetCause) (s : State) (h : calledFor s) (q : AttnPair) :
    q ∈ (s.startUp cause).attention.pendingSet ↔
      q = ⟨.clockIrregular, 0⟩ ∨ (q = ⟨.sweepLate, 0⟩ ∧ s.sweep.running = true) ∨
        ∃ k : Fin 16, s.channels[k].state = .live ∧ q = ⟨.channelSilent, k⟩ := by
  rw [State.startUp_of_called cause s h, State.mem_makeBoundary, State.mem_latch,
    State.mem_restarted]
  simp [Clock.afterStart, IntakeQueue.empty]
  tauto

theorem State.mem_startUp_not_called (cause : ResetCause) (s : State) (h : ¬calledFor s)
    (q : AttnPair) :
    q ∈ (s.startUp cause).attention.pendingSet ↔
      ∃ k : Fin 16, s.channels[k].state = .live ∧ q = ⟨.channelSilent, k⟩ := by
  rw [State.startUp_of_not_called cause s h, State.mem_restarted]

/-- R103: CHANNEL_SILENT stands after a start for the channels that were LIVE. -/
theorem State.mem_startUp_silent (cause : ResetCause) (s : State) (k : Fin 16) :
    ⟨.channelSilent, k.val⟩ ∈ (s.startUp cause).attention.pendingSet ↔
      s.channels[k].state = .live := by
  by_cases h : calledFor s
  · rw [State.mem_startUp_called cause s h]
    simp [Fin.val_inj]
  · rw [State.mem_startUp_not_called cause s h]
    simp [Fin.val_inj]

/-- R184: what a start leaves of the queue and the clock, called to a boundary or not. -/
theorem State.startUp_queue_clock (cause : ResetCause) (s : State) :
    (s.startUp cause).queue.entries = [] ∧ (s.startUp cause).queue.congested = false ∧
      (s.startUp cause).clock =
        { s.clock with
          monotonic := 0, gapHalves := 0, phaseHalves := 0,
          boundaryNumber := (s.startUp cause).clock.boundaryNumber,
          lastBoundary := (s.startUp cause).clock.lastBoundary,
          markerWaiting := (s.startUp cause).clock.markerWaiting } := by
  by_cases h : calledFor s
  · simp [State.startUp_of_called cause s h, State.makeBoundary_queue, IntakeQueue.empty,
      Clock.afterStart]
  · simp [State.startUp_of_not_called cause s h, IntakeQueue.empty, Clock.afterStart]

/-- R184 to R186: the start-up sequence, called to a boundary or not. -/
theorem State.startUp_startedFrom {cause : ResetCause} {s t : State} (ht : s.startUp cause = t) :
    startedFrom cause s t := by
  subst ht
  obtain ⟨hentries, hcongested, hclock⟩ := State.startUp_queue_clock cause s
  refine ⟨State.startUp_device .., State.startUp_port .., hentries, hcongested,
    State.startUp_mask .., State.startUp_holdTime .., State.startUp_tariff ..,
    State.startUp_slots .., State.startUp_directory .., State.startUp_pending ..,
    fun k => ⟨?channel, State.mem_startUp_silent cause s k⟩, fun n => ?link,
    by rw [hclock], by rw [hclock], by rw [hclock], by rw [hclock], by rw [hclock],
    by rw [hclock], fun h => ?called, fun h => ?quiet⟩
  case channel => rw [State.startUp_channel, channelAfterRestart_eq]
  case link =>
    by_cases h : calledFor s
    · rw [State.startUp_links_called cause s h]
      exact ⟨rfl, rfl⟩
    · rw [State.startUp_links_not_called cause s h]
      exact ⟨rfl, rfl⟩
  case called =>
    refine ⟨?_, ?_, ?_, ?_, (State.mem_startUp_called cause s h _).mpr (.inl rfl),
      State.startUp_links_called cause s h, ?_, ?_⟩
    · simp [State.startUp_of_called cause s h, Clock.afterStart]
    · simp [State.startUp_of_called cause s h]
    · simp [State.startUp_of_called cause s h, State.makeBoundary_queue, Clock.afterStart,
        IntakeQueue.empty]
    · simp [State.startUp_of_called cause s h]
    · simp [State.startUp_of_called cause s h, State.makeBoundary_sweep, Clock.afterStart,
        IntakeQueue.empty]
    · rw [State.mem_startUp_called cause s h]
      simp
  case quiet =>
    refine ⟨?_, ?_, ?_, ?_, ?_, State.startUp_links_not_called cause s h, ?_⟩
    · simp [State.startUp_of_not_called cause s h, Clock.afterStart]
    · simp [State.startUp_of_not_called cause s h, Clock.afterStart]
    · simp [State.startUp_of_not_called cause s h, IntakeQueue.empty]
    · simp [State.startUp_of_not_called cause s h, Clock.afterStart]
    · rw [State.mem_startUp_not_called cause s h]
      simp
    · simp [State.startUp_of_not_called cause s h]

/-- Settles O8, by the start-up sequence under each cause. -/
theorem startUpKeepsRetainedState : Obligations.StartUpKeepsRetainedState := by
  refine fun s => ⟨fun hm hv => ⟨s.startUp .powerOn, ?_, State.startUp_startedFrom rfl⟩,
    fun hm hh => ⟨s.startUp .pin, ?_, State.startUp_startedFrom rfl⟩⟩
  · show Host.Outcome.next _ = _
    rw [hm, hv]
    rfl
  · exact congrArg _ (if_pos (by rw [hm, hh]; rfl))

/-! ## Loss of power and the reset pin (R178, R183, R188) -/

/-- R183: the loss of the working state leaves every retained item. -/
theorem State.dropWorking_sameRetained (d : Device) (s : State) :
    sameRetained s (s.setDevice d).dropWorking :=
  ⟨rfl, rfl, rfl, rfl, rfl, rfl, rfl, rfl, rfl, rfl, rfl, rfl, rfl⟩

/-- Settles O9, event by event. -/
theorem lossOfPowerKeepsRetainedState : Obligations.LossOfPowerKeepsRetainedState := by
  refine fun s => ⟨fun hm => ?_, fun hm hh => ?_, fun hm => ?_, fun hm => ?_⟩
  · exact ⟨(s.setDevice { s.device with mainPower := false, resetHeld := false }).dropWorking,
      congrArg Host.Outcome.next (if_pos hm), State.dropWorking_sameRetained _ s, rfl, rfl, rfl,
      rfl, rfl⟩
  · have ha : s.awake = true := by rw [State.awake, hm, hh]; rfl
    exact ⟨(s.setDevice { s.device with resetHeld := true }).dropWorking,
      congrArg Host.Outcome.next (if_pos ha), State.dropWorking_sameRetained _ s, rfl, rfl, rfl,
      rfl, rfl⟩
  · exact congrArg _ (if_neg (by rw [hm]; exact Bool.false_ne_true))
  · exact congrArg _ (if_pos hm)

/-- Settles O10, by whether the slot is VACANT. -/
theorem disturbanceChangesTheStoredContract : Obligations.DisturbanceChangesTheStoredContract :=
  fun _ _ _ _ => ⟨fun h => congrArg _ (if_neg h), fun h => congrArg _ (if_pos h)⟩

/-! ## ENGINE CLEAR (R189) -/

theorem channelAfterClear_eq (c : Channel) :
    channelAfterClear c =
      { restartedChannel c with
        lastSecond := c.lastSecond, implausibleRun := c.implausibleRun } := by
  unfold channelAfterClear reloadTimer restartedChannel
  cases hs : c.state <;> simp

theorem State.mem_engineClear (q : AttnPair) (s : State) :
    q ∈ s.engineClear.attention.pendingSet ↔
      ∃ k : Fin 16, s.channels[k].state = .live ∧ q = ⟨.channelSilent, k⟩ := by
  simp [State.engineClear, State.mem_resetChannels]

theorem State.engineClear_channel (k : Fin 16) (s : State) :
    s.engineClear.channels[k] = channelAfterClear s.channels[k] := by
  rw [State.engineClear_channels, getElem_ofFn_channel]

theorem State.engineClear_mask (s : State) :
    s.engineClear.attention.mask = s.attention.mask := by simp [State.engineClear]

/-- Settles O11, by whether the sweep runs. -/
theorem engineClearRestartsTheIntakeSide : Obligations.EngineClearRestartsTheIntakeSide := by
  intro s ha
  refine ⟨fun hr => exec_of_accepts (act := actEngineClear) rfl ha (if_pos hr), fun hr =>
    ⟨s.engineClear.setSweep { s.sweep with nextSlot := 32, heldMarker := false },
      exec_of_accepts (act := actEngineClear) rfl ha (if_neg (by rw [hr]; exact Bool.false_ne_true)),
      State.engineClear_queue s, State.engineClear_clock s, State.engineClear_links s,
      State.engineClear_mask s, fun q => State.mem_engineClear q s,
      fun k => (State.engineClear_channel k s).trans (channelAfterClear_eq _),
      State.engineClear_device s, rfl, State.engineClear_slots s, State.engineClear_directory s,
      State.engineClear_tariff s, State.engineClear_holdTime s, State.engineClear_port s,
      State.engineClear_pending s⟩⟩

end Sys2Proof.Machine

/-!
PROOFS. The billing clock (R27 to R40): the setting commands, the second advance with what follows it,
the pulse-loss fallback, and the making of a boundary.
-/

namespace Sys2Proof.Machine

/-! ## Making a boundary (R33 to R35) -/

/-- R70: a TIME request on a link with no control frame before it begins at once. -/
theorem Link.requestTime_idle {h : Nat} {r : TimeRequest} {l : Link} (ht : l.transmitter = .idle)
    (hc : l.waitingControl = none) : (l.requestTime h r).transmitter = .sendingTime r := by
  rw [Link.requestTime, Link.beginNext]
  dsimp only
  rw [ht, hc]

/-- R70: a TIME request on a busy link waits, in place of an older one. -/
theorem Link.requestTime_busy {h : Nat} {r : TimeRequest} {l : Link} (ht : l.transmitter ≠ .idle) :
    l.requestTime h r = { l with waitingTime := some r } := by
  rw [Link.requestTime, Link.beginNext]
  dsimp only
  split
  · exact absurd ‹_› ht
  · exact absurd ‹_› ht
  · exact absurd ‹_› ht
  · rfl

/-- Settles O16, field by field. -/
theorem boundaryPlacesOrMergesTheMarker : Obligations.BoundaryPlacesOrMergesTheMarker := by
  intro t kind s
  dsimp only
  refine ⟨State.makeBoundary_clock .., ?_, ?_, fun hw => ?_, fun q hw hq => ⟨?_, ?_⟩,
    fun hw he hr => ⟨?_, ?_⟩, fun n => ⟨fun ⟨ht, hc⟩ => ?_, fun ht => ?_⟩,
    State.makeBoundary_slots .., State.makeBoundary_directory .., State.makeBoundary_tariff ..,
    State.makeBoundary_channels .., State.makeBoundary_port .., State.makeBoundary_device ..,
    State.makeBoundary_holdTime .., State.makeBoundary_pending ..⟩
  · rw [State.makeBoundary_queue]
  · rw [State.makeBoundary_queue]
  · rw [State.makeBoundary_queue, hw]
    rfl
  · rw [State.makeBoundary_queue, hw, hq]
    rfl
  · exact (State.mem_makeBoundary t kind s _).mpr (.inl ⟨rfl, hw⟩)
  · simp [State.makeBoundary_sweep, hw, he, hr]
  · exact (State.mem_makeBoundary t kind s _).mpr (.inr (.inl ⟨rfl, hw, he, hr⟩))
  · rw [State.makeBoundary_links, getElem_ofFn_link, Link.requestTime_idle ht hc]
  · rw [State.makeBoundary_links, getElem_ofFn_link, Link.requestTime_busy ht]

/-! ## Setting the clock (R37, R38, R40) -/

theorem actSetClock_refused {time : TimeImage} {source : Byte} {s : State}
    (h : (calTimeOf time).valid = false ∨ sourceOf source = none) :
    actSetClock time source s = (s, ⟨.badOperand, []⟩) := by
  rw [actSetClock]
  split
  · rw [h.resolve_left (by simp_all)]
    rfl
  · rfl

theorem actSetClock_taken {time : TimeImage} {source : Byte} {src : SecondSource} {s : State}
    (hv : (calTimeOf time).valid = true) (hs : sourceOf source = some src) :
    actSetClock time source s = s.takeClock (calTimeOf time) src := by
  rw [actSetClock, if_pos hv, hs]

theorem State.takeClock_inside {t : CalTime} {src : SecondSource} {s : State}
    (h : sameSubinterval s.clock.subinterval s.clock.time t = true) :
    s.takeClock t src =
      (clockSet t src s, ⟨.ok, wordBytes s.clock.boundaryNumber ++ [1, 0]⟩) := by
  rw [State.takeClock]
  exact if_pos h

theorem State.takeClock_outside {t : CalTime} {src : SecondSource} {s : State}
    (h : sameSubinterval s.clock.subinterval s.clock.time t = false) :
    s.takeClock t src =
      (((clockSet t src s).latch .clockIrregular 0).makeBoundary t .irregular,
        ⟨.ok, wordBytes (s.clock.boundaryNumber + 1) ++ [1, 1]⟩) := by
  rw [State.takeClock]
  dsimp only
  rw [if_neg (by rw [h]; exact Bool.false_ne_true), State.makeBoundary_clock]
  rfl

/-- Settles O12, by the operands and by whether the time set lies in the current subinterval. -/
theorem setClockFollowsTheSubinterval : Obligations.SetClockFollowsTheSubinterval := by
  intro time source s ha
  refine ⟨fun h => exec_of_accepts (act := actSetClock time source) rfl ha (actSetClock_refused h),
    fun src hv hs => ⟨fun h => ?_, fun h => ?_⟩⟩
  · exact exec_of_accepts (act := actSetClock time source) rfl ha
      ((actSetClock_taken hv hs).trans (State.takeClock_inside h))
  · exact exec_of_accepts (act := actSetClock time source) rfl ha
      ((actSetClock_taken hv hs).trans (State.takeClock_outside h))

theorem State.accountsOpen_iff (s : State) :
    s.accountsOpen = true ↔ ∃ i : Fin 32, s.slots[i].state.counted = true := by
  simp [State.accountsOpen, slotNumbers]

/-- R40 step 3 fails: some point of some schedule does not fit. -/
theorem State.schedulesFit_false_iff (n : Nat) (s : State) :
    s.schedulesFit n ≠ true ↔ ∃ (k : Fin 8) (p : Schedule), s.tariff.schedules[k] = some p ∧
      ∃ q ∈ p.weekday ++ p.saturday ++ p.sunday ++ p.holiday, 60 * q.minute % n ≠ 0 := by
  have hfits : ∀ p : Schedule, scheduleFits n p = true ↔
      ∀ q ∈ p.weekday ++ p.saturday ++ p.sunday ++ p.holiday, 60 * q.minute % n = 0 := by
    intro p
    simp only [scheduleFits, programFits, Bool.and_eq_true, List.all_eq_true, beq_iff_eq,
      List.mem_append, or_imp, forall_and]
  rw [Ne, State.schedulesFit_iff]
  simp only [hfits]
  push Not
  rfl

/-- Settles O13, check by check. -/
theorem setSubintervalWithNoAccountOpen : Obligations.SetSubintervalWithNoAccountOpen := by
  intro length s ha
  refine exec_of_accepts (act := actSetSubinterval length) rfl ha ?_
  have hopen := State.accountsOpen_iff s
  have hfit := State.schedulesFit_false_iff length.toNat s
  rw [actSetSubinterval]
  refine if_congr Iff.rfl rfl (if_congr hopen rfl (if_congr hfit rfl rfl))

/-! ## Second advances (R27 to R31, R42, R188) -/

theorem afterSecond_eq (old : CalTime) (s : State) :
    afterSecond old s = s.boundaryAtSecond (decide (old = CalTime.last)) := by
  simp only [afterSecond, State.boundaryAtSecond, decide_eq_true_eq]

/-- R27, R28: a second advance of an awake part is the clock's second with what follows it. -/
theorem State.advanceSecond_awake {s : State} (h : s.awake = true) :
    s.advanceSecond = secondMade s := by
  rw [State.advanceSecond, secondMade, afterSecond_eq]
  exact if_pos h

@[simp] theorem State.advanceSecond_keeps_awake (s : State) : s.advanceSecond.awake = s.awake :=
  State.awake_congr s.advanceSecond_device

/-- A part that runs on main power with the reset pin held is not awake. -/
theorem State.awake_of_held {s : State} (h : s.device.resetHeld = true) : s.awake = false := by
  rw [State.awake, h, Bool.not_true, Bool.and_false]

theorem State.mainPower_of_awake {s : State} (h : s.awake = true) : s.device.mainPower = true :=
  (Bool.and_eq_true_iff.mp h).1

/-- Settles O14, by the power and the second source. -/
theorem secondAdvances : Obligations.SecondAdvances := by
  refine fun s => ⟨fun ha hp => ?_, fun hi => ?_, fun ha hi => ?_, fun hm hv => ?_,
    fun hm hh => ⟨fun hp => ?_, fun hi => ?_⟩⟩
  · exact congrArg _ ((if_pos ⟨State.mainPower_of_awake ha, hp⟩).trans
      (State.advanceSecond_awake (s := s.setClock { s.clock with gapHalves := 0 }) ha))
  · exact congrArg _ (if_neg fun h => by rw [hi] at h; cases h.2)
  · exact congrArg _ ((if_pos ⟨State.mainPower_of_awake ha, hi⟩).trans
      (State.advanceSecond_awake (s := s.setClock { s.clock with phaseHalves := 0 }) ha))
  · exact congrArg _ (if_pos (by rw [State.onBackup, hm, hv]; rfl))
  · exact congrArg _ ((if_pos ⟨hm, hp⟩).trans (State.advanceSecond_held
      (s := s.setClock { s.clock with gapHalves := 0 }) (State.awake_of_held hh)))
  · exact congrArg _ ((if_pos ⟨hm, hi⟩).trans (State.advanceSecond_held
      (s := s.setClock { s.clock with phaseHalves := 0 }) (State.awake_of_held hh)))

/-! ## The pulse-loss fallback (R29) -/

theorem exec_pulseLossFallback {s : State} (hm : s.device.mainPower = true)
    (hp : s.clock.source = .pulse) : exec .pulseLossFallback s = .next s.fallBack :=
  congrArg _ (if_pos ⟨hm, hp⟩)

/-- R29: the fallback of an awake part. -/
theorem State.fallBack_awake {s : State} (ha : s.awake = true) :
    s.fallBack = State.latch .clockIrregular 0 (secondMade (secondMade (secondMade
      { s with clock := fallenBack s.clock }))) := by
  have hawake : (s.setClock (fallenBack s.clock)).awake = true := ha
  rw [State.fallBack]
  dsimp only
  rw [if_pos ha]
  have h1 := State.advanceSecond_awake hawake
  have h2 := State.advanceSecond_awake
    (s := (s.setClock (fallenBack s.clock)).advanceSecond) (by simpa using ha)
  have h3 := State.advanceSecond_awake
    (s := (s.setClock (fallenBack s.clock)).advanceSecond.advanceSecond) (by simpa using ha)
  show State.latch .clockIrregular 0
    (s.setClock (fallenBack s.clock)).advanceSecond.advanceSecond.advanceSecond = _
  rw [h3, h2, h1]
  rfl

/-- R188: the fallback while the reset pin is held moves the clock alone. -/
theorem State.fallBack_held {s : State} (hh : s.device.resetHeld = true) :
    s.fallBack =
      { s with clock := secondLater (secondLater (secondLater (fallenBack s.clock))) } := by
  have hs : s.awake = false := State.awake_of_held hh
  rw [State.fallBack]
  dsimp only
  rw [if_neg (by rw [hs]; exact Bool.false_ne_true)]
  rw [State.advanceSecond_held (by simpa using hs), State.advanceSecond_held (by simpa using hs),
    State.advanceSecond_held (by simpa using hs)]
  rfl

theorem State.fallBack_clock (s : State) :
    s.fallBack.clock.source = .internal ∧ s.fallBack.clock.time = s.clock.time.next.next.next ∧
      s.fallBack.clock.monotonic = s.clock.monotonic + 3 ∧ s.fallBack.clock.gapHalves = 0 ∧
      s.fallBack.queue.entries = s.queue.entries := by
  rw [State.fallBack]
  dsimp only
  split <;> simp [add_assoc]

/-- Settles O15, awake and held. -/
theorem pulseLossFallsBack : Obligations.PulseLossFallsBack := by
  refine fun s hp => ⟨fun ha => ?_, fun hm hh => ?_⟩
  · obtain ⟨hsource, htime, hmonotonic, hgap, hentries⟩ := State.fallBack_clock s
    refine ⟨s.fallBack, exec_pulseLossFallback (State.mainPower_of_awake ha) hp,
      State.fallBack_awake ha, hsource, htime, hmonotonic, hgap, ?_, State.fallBack_slots s,
      State.fallBack_directory s, State.fallBack_tariff s, State.fallBack_channels s, hentries,
      State.fallBack_holdTime s, State.fallBack_port s, State.fallBack_device s⟩
    rw [State.fallBack_awake ha]
    exact (State.mem_latch ..).mpr (.inl rfl)
  · rw [exec_pulseLossFallback hm hp, State.fallBack_held hh]

end Sys2Proof.Machine

/-!
PROOFS. The commands that report and the attention unit (R39, R55, R75, R76, R102, R127, R165 to R170,
R180).
-/

namespace Sys2Proof.Machine

/-! ## The tariff's reading (R55) -/

theorem State.scheduleSlot_of_lt {n : Nat} (h : n < 8) (s : State) :
    s.scheduleSlot n = some s.tariff.schedules[n] := dif_pos h

theorem State.scheduleSlot_of_gt {n : Nat} (h : 7 < n) (s : State) : s.scheduleSlot n = none :=
  dif_neg (by omega)

/-- Settles O18, by the state of the slot. -/
theorem readScheduleReportsTheSlot : Obligations.ReadScheduleReportsTheSlot := by
  refine fun slot s ha => ⟨fun h => ?_, fun h => ⟨fun hp => ?_, fun p hp => ?_⟩⟩ <;>
    refine exec_of_accepts (act := actReadSchedule slot) rfl ha ?_ <;> rw [actReadSchedule]
  · rw [State.scheduleSlot_of_gt h]
    rfl
  · rw [State.scheduleSlot_of_lt h, hp]
    rfl
  · rw [State.scheduleSlot_of_lt h, hp]
    rfl

/-! ## Links and hold time (R75, R76) -/

/-- R76: the marker of the queue as READ LINKS shows it. -/
theorem queueBytes_eq (q : IntakeQueue) :
    queueBytes q = [u8 q.entries.length, flagByte q.congested] ++
      (match q.marker with
      | none => List.replicate 7 0
      | some m => 1 :: u8 m.position :: wordBytes m.marker.number ++ [m.marker.kind.code]) := by
  rw [queueBytes]
  cases q.marker <;> rfl

/-- Settles O21: each command's own act. -/
theorem holdTimeAndReadLinks : Obligations.HoldTimeAndReadLinks := by
  refine ⟨fun seconds s ha => exec_of_accepts (act := actSetHoldTime seconds) rfl ha rfl,
    fun s ha => exec_of_accepts (act := actReadLinks) rfl ha ?_⟩
  rw [actReadLinks, queueBytes_eq, ← List.append_assoc]
  rfl

/-! ## Clock, channels, sweep and identity (R39, R102, R127, R180) -/

theorem channelOf_of_eq {b : Byte} {k : Fin 16} (h : b.toNat = k.val) : channelOf b = some k := by
  rw [channelOf, dif_pos (by omega)]
  exact congrArg some (Fin.ext h)

theorem channelOf_of_gt {b : Byte} (h : 15 < b.toNat) : channelOf b = none := dif_neg (by omega)

/-- Settles O29: each read's own bytes. -/
theorem readsOfClockChannelSweepAndIdentity : Obligations.ReadsOfClockChannelSweepAndIdentity := by
  refine ⟨fun s ha => exec_of_accepts (act := actReadClock) rfl ha rfl,
    fun b s ha => ⟨fun h => ?_, fun k h => ?_⟩,
    fun s ha => exec_of_accepts (act := actReadSweep) rfl ha rfl,
    fun s ha => exec_of_accepts (act := actReadIdentity) rfl ha rfl⟩ <;>
    refine exec_of_accepts (act := actReadChannel b) rfl ha ?_ <;> rw [actReadChannel]
  · rw [channelOf_of_gt h]
    rfl
  · rw [channelOf_of_eq h]
    dsimp only
    rw [channelBytes, elapsedSeconds, Option.map_map]
    rfl

/-! ## The attention unit (R164 to R170) -/

theorem mem_slotKinds (k : AttnKind) : k ∈ slotKinds ↔ k.ofSlot = true := by
  cases k <;> decide

/-- R166: the account number reported with a pair. -/
theorem State.pairAccount_eq (p : AttnPair) (s : State) : s.pairAccount p = accountHeld s p := by
  unfold State.pairAccount accountHeld State.slotAccount
  split
  · simp only [mem_slotKinds]
    split <;> split <;> simp_all
  · rfl

theorem kindOfRank_rank (k : AttnKind) : kindOfRank k.rank = some k := by cases k <;> rfl

theorem kindOfRank_of_gt {n : Nat} (h : 15 < n) : kindOfRank n = none :=
  List.getElem?_eq_none (by simp only [List.length_cons, List.length_nil]; omega)

theorem allKinds_map_rank : allKinds.map AttnKind.rank = List.range 16 := by decide

theorem State.pairsOf_eq (k : AttnKind) (s : State) :
    s.pairsOf k = s.attention.pendingSet.filter fun p => p.kind.rank == k.rank := by
  refine List.filter_congr fun p _ => ?_
  rw [Bool.eq_iff_iff, decide_eq_true_iff, beq_iff_eq]
  exact ⟨congrArg _, fun h => AttnKind.rank_injective h⟩

/-- R170: counting by kind in the order of rank is counting by rank. -/
theorem State.pairCounts_eq (s : State) :
    (allKinds.map fun j => u8 (s.pairsOf j).length) =
      (List.range 16).map fun r =>
        u8 (s.attention.pendingSet.filter fun p => p.kind.rank == r).length := by
  rw [← allKinds_map_rank, List.map_map]
  exact List.map_congr_left fun k _ => by rw [State.pairsOf_eq]; rfl

theorem State.sourceBytes_eq (k : AttnKind) (s : State) :
    s.sourceBytes k = fun p =>
      u8 p.source :: (if k ∈ slotKinds then wordBytes (accountHeld s p) else []) := by
  funext p
  simp only [State.sourceBytes, State.pairAccount_eq, mem_slotKinds]

/-- Settles O49: the mask, the reading and the two lines. -/
theorem maskAndLines : Obligations.MaskAndLines := by
  refine ⟨fun mask s ha => exec_of_accepts (act := actSetAttentionMask mask) rfl ha rfl,
    fun b s ha => ⟨fun h => ?_, fun k h => ?_⟩, fun s => ⟨?_, ?_⟩⟩
  · refine exec_of_accepts (act := actReadAttention b) rfl ha ?_
    rw [actReadAttention, kindOfRank_of_gt h]
    rfl
  · refine exec_of_accepts (act := actReadAttention b) rfl ha ?_
    rw [actReadAttention, h, kindOfRank_rank]
    dsimp only
    rw [State.pairCounts_eq, State.sourceBytes_eq]
    rfl
  · simp [State.attn, enabled]
  · rw [State.ready]
    split <;> simp_all

/-- R165: in a sound set no pair of higher rank, or of the same kind and lower source, comes after. -/
theorem AttnPair.key_le {p q : AttnPair} (hp : p.inRange = true)
    (h : q.kind.rank < p.kind.rank ∨ (q.kind = p.kind ∧ p.source ≤ q.source)) :
    p.key ≤ q.key := by
  have hsource : p.source < 32 :=
    (of_decide_eq_true hp).trans_le p.kind.sources_le
  have hrank := p.kind.rank_le
  rw [AttnPair.key, AttnPair.key]
  rcases h with h | ⟨h, hs⟩
  · omega
  · rw [h]
    omega

theorem State.firstEnabled_eq_some {p : AttnPair} {s : State} (hs : s.attention.sound = true)
    (hp : p ∈ s.attention.pendingSet) (he : enabled s.attention.mask p.kind = true)
    (hmin : ∀ q ∈ s.attention.pendingSet, enabled s.attention.mask q.kind = true →
      q.kind.rank < p.kind.rank ∨ (q.kind = p.kind ∧ p.source ≤ q.source)) :
    s.firstEnabled = some p := by
  obtain ⟨hrange, horder⟩ := Bool.and_eq_true_iff.mp hs
  exact find?_eq_of_least ((takingOrder_iff _).mp horder) hp he fun q hq hqe =>
    AttnPair.key_le (List.all_eq_true.mp hrange p hp) (hmin q hq hqe)

theorem actDismiss_refused {kinds : Half} {b : Byte} {s : State} (h : 31 < b.toNat) :
    actDismiss kinds (some b) s = (s, ⟨.badOperand, []⟩) := if_pos (decide_eq_true h)

/-- R168: the pairs DISMISS names. -/
theorem dismisses_eq (kinds : Half) (source : Option Byte) (p : AttnPair) :
    dismisses kinds source p =
      (kinds.getLsbD p.kind.rank && source.all fun b => p.source == b.toNat) := by
  cases source <;> rfl

theorem sourceTooHigh_eq_false {source : Option Byte} (h : ∀ b, source = some b → b.toNat ≤ 31) :
    sourceTooHigh source = false := by
  cases source with
  | none => rfl
  | some b => exact decide_eq_false (Nat.not_lt.mpr (h b rfl))

/-- Settles O48: the first enabled pair in taking order, and the pairs DISMISS names. -/
theorem takingAndDismissing : Obligations.TakingAndDismissing := by
  refine ⟨fun s ha hs => ⟨fun p hp he hmin => ?_, fun hnone => ?_⟩,
    fun kinds source s ha => ⟨fun b hb h => ?_, fun h => ?_⟩⟩
  · refine exec_of_accepts (act := actTakeAttention) rfl ha ?_
    rw [actTakeAttention, State.firstEnabled_eq_some hs hp he hmin]
    dsimp only
    rw [State.pairAccount_eq]
    rfl
  · refine exec_of_accepts (act := actTakeAttention) rfl ha ?_
    have hempty : s.attention.enabledPairs = [] :=
      List.filter_eq_nil_iff.mpr fun p hp => by simp [hnone p hp]
    have hfirst : s.firstEnabled = none := List.find?_eq_none.mpr fun p hp => by simp [hnone p hp]
    rw [actTakeAttention, hfirst]
    dsimp only
    rw [State.enabledCount, hempty]
    rfl
  · subst hb
    exact exec_of_accepts (act := actDismiss kinds (some b)) rfl ha (actDismiss_refused h)
  · refine exec_of_accepts (act := actDismiss kinds source) rfl ha ?_
    rw [actDismiss, sourceTooHigh_eq_false h]
    simp only [dismisses_eq]
    rfl

end Sys2Proof.Machine

/-!
PROOFS. A link's transmitter, flow control and hold timer (R68 to R74), and the presence timer (R80).
-/

namespace Sys2Proof.Machine

/-! ## Flow changes and the presence timers (R74) -/

theorem freezeTimer_eq (n : Fin 4) (s : State) (k : Fin 16) :
    (if linkOf k = n then freezeTimer s.channels[k] else s.channels[k]) = frozenOn n s k := by
  unfold frozenOn freezeTimer
  by_cases hn : linkOf k = n <;> simp [hn]

theorem reloadTimer_eq (n : Fin 4) (s : State) (k : Fin 16) :
    (if linkOf k = n then reloadTimer true s.channels[k] else s.channels[k]) =
      reloadedOn n s k := by
  unfold reloadedOn reloadTimer
  by_cases hn : linkOf k = n <;> simp [hn]

/-- R74: a link that leaves FLOWING freezes the timers of its channels. -/
theorem State.changeLink_leaves {n : Fin 4} {l : Link} {s : State}
    (hw : s.links[n].flow = .flowing) (hl : l.flow ≠ .flowing) :
    s.changeLink n l =
      { s with
        links := s.links.set n l, channels := Vector.ofFn fun k : Fin 16 => frozenOn n s k } := by
  simp only [← freezeTimer_eq]
  rw [State.changeLink, State.flowing, hw, decide_eq_false hl]
  rfl

/-- R74: a link that returns to FLOWING reloads the timers of its channels. -/
theorem State.changeLink_returns {n : Fin 4} {l : Link} {s : State}
    (hw : s.links[n].flow ≠ .flowing) (hl : l.flow = .flowing) :
    s.changeLink n l =
      { s with
        links := s.links.set n l, channels := Vector.ofFn fun k : Fin 16 => reloadedOn n s k } := by
  simp only [← reloadTimer_eq]
  rw [State.changeLink, State.flowing, decide_eq_false hw, hl]
  rfl

/-! ## Control frames (R68 to R70) -/

/-- R70: a control frame asked for begins on an IDLE transmitter and waits on a busy one. -/
theorem Link.sendControl_eq (h : Nat) (f : ControlFrame) (w : FlowState) (l : Link) :
    l.sendControl h f w = controlAsked h f w l := by
  unfold Link.sendControl controlAsked Link.beginNext
  cases l.transmitter <;> cases f <;> rfl

/-- R70: what follows a completed frame. -/
theorem Link.beginNext_eq (h : Nat) (l : Link) :
    Link.beginNext h { l with transmitter := .idle } = nextBegun h l := by
  unfold Link.beginNext nextBegun
  cases l.waitingControl with
  | none => cases l.waitingTime <;> rfl
  | some f => cases f <;> rfl

theorem nextBegun_flow (h : Nat) (l : Link) : (nextBegun h l).flow = l.flow := by
  rw [← Link.beginNext_eq, Link.beginNext_flow]

/-- A link record that stays FLOWING or stays out of it, put in its place. -/
theorem State.changeLink_keeps {n : Fin 4} {l : Link} {s : State}
    (h : l.flow = .flowing ↔ s.links[n].flow = .flowing) :
    s.changeLink n l = { s with links := s.links.set n l } := by
  have hflow : decide (l.flow = .flowing) = decide (s.links[n].flow = .flowing) :=
    decide_eq_decide.mpr h
  rw [State.changeLink, State.flowing, hflow]
  cases decide (s.links[n].flow = .flowing) <;> rfl

theorem State.changeLink_self (n : Fin 4) (s : State) : s.changeLink n s.links[n] = s := by
  rw [State.changeLink_sameFlow rfl]
  simp [State.setLinks]

theorem Link.with_flow {w : FlowState} {l : Link} (h : l.flow = w) : { l with flow := w } = l := by
  subst h
  rfl

/-! ## The completion of a frame (R71) -/

theorem exec_transmissionComplete_of_awake {n : Fin 4} {s : State} (ha : s.awake = true) :
    exec (.transmissionComplete n) s =
      .next (s.changeLink n (s.links[n].complete s.holdTime)) := congrArg _ (if_pos ha)

section
variable {h carried : Nat} {l : Link}

theorem Link.complete_idle (ht : l.transmitter = .idle) : l.complete h = l := by
  rw [Link.complete, ht]

theorem Link.complete_time {r : TimeRequest} (ht : l.transmitter = .sendingTime r) :
    l.complete h = nextBegun h l := by
  rw [Link.complete, Link.beginNext_eq, ht]

/-- R71: the completion of a HOLD. -/
theorem Link.complete_hold (ht : l.transmitter = .sendingHold carried)
    (hf : l.flow ≠ .releasePending) :
    l.complete h =
      { nextBegun h l with holdTimer := some 0, lastHold := carried, flow := .held } := by
  rw [Link.complete, Link.beginNext_eq, ht]
  dsimp only
  rw [if_neg hf]

/-- R71: the completion of a HOLD while a RELEASE is on its way. -/
theorem Link.complete_hold_releasing (ht : l.transmitter = .sendingHold carried)
    (hf : l.flow = .releasePending) :
    l.complete h = { nextBegun h l with holdTimer := some 0, lastHold := carried } := by
  rw [Link.complete, Link.beginNext_eq, ht]
  dsimp only
  rw [if_pos hf]
  exact Link.with_flow (l := { nextBegun h l with holdTimer := some 0, lastHold := carried })
    ((nextBegun_flow h l).trans hf)

/-- R71: the completion of the RELEASE that was on its way. -/
theorem Link.complete_release (ht : l.transmitter = .sendingRelease)
    (hf : l.flow = .releasePending) :
    l.complete h = { nextBegun h l with holdTimer := none, flow := .flowing } := by
  rw [Link.complete, Link.beginNext_eq, ht]
  dsimp only
  rw [if_pos hf]

/-- R71: the completion of a RELEASE that a hold request has overtaken. -/
theorem Link.complete_release_overtaken (ht : l.transmitter = .sendingRelease)
    (hf : l.flow ≠ .releasePending) :
    l.complete h = { nextBegun h l with holdTimer := none } := by
  rw [Link.complete, Link.beginNext_eq, ht]
  dsimp only
  rw [if_neg hf]
  exact Link.with_flow (l := { nextBegun h l with holdTimer := none }) (nextBegun_flow h l)

end

/-- Settles O26, by the frame in transmission and the flow state. -/
theorem transmissionCompletes : Obligations.TransmissionCompletes := by
  intro n s ha
  dsimp only
  rw [exec_transmissionComplete_of_awake ha]
  refine ⟨fun ht => ?idle, fun r ht => ?time,
    fun h ht => ⟨fun hf => ?held, fun hf => ?fromFlowing, fun hf => ?releasing⟩,
    fun ht => ⟨fun hf => ?release, fun hf => ?overtaken⟩⟩
  case idle => rw [Link.complete_idle ht, State.changeLink_self]
  case time => rw [Link.complete_time ht, State.changeLink_keeps (by rw [nextBegun_flow])]
  case held =>
    rw [Link.complete_hold ht (by rcases hf with hf | hf <;> rw [hf] <;> exact nofun),
      State.changeLink_keeps (by rcases hf with hf | hf <;> simp [-Fin.getElem_fin, hf])]
  case fromFlowing =>
    rw [Link.complete_hold ht (by rw [hf]; exact nofun), State.changeLink_leaves hf (by exact nofun)]
  case releasing =>
    rw [Link.complete_hold_releasing ht hf, State.changeLink_keeps (by dsimp only; rw [nextBegun_flow])]
  case release =>
    rw [Link.complete_release ht hf, State.changeLink_returns (by rw [hf]; exact nofun) rfl]
  case overtaken =>
    rw [Link.complete_release_overtaken ht hf,
      State.changeLink_keeps (by dsimp only; rw [nextBegun_flow])]

/-! ## The refresh point and the expiry (R72, R73) -/

theorem exec_refreshPoint {n : Fin 4} {h : Nat} {s : State} (ha : s.awake = true)
    (ht : s.links[n].holdTimer = some h) (hl : h < s.links[n].lastHold) :
    exec (.refreshPoint n) s = .next (s.refreshLink n) :=
  congrArg _ (if_pos (by rw [ha, Link.beforeRefresh, ht]; exact decide_eq_true hl))

theorem exec_holdExpiry {n : Fin 4} {h : Nat} {s : State} (ha : s.awake = true)
    (ht : s.links[n].holdTimer = some h) :
    exec (.holdExpiry n) s = .next (s.changeLink n s.links[n].expire) :=
  congrArg _ (if_pos (by rw [ha, ht]; rfl))

/-- R72: a refresh HOLD begins on an IDLE transmitter. -/
theorem Link.refresh_begins {h : Nat} {l : Link} (hf : l.flow = .held)
    (hc : l.waitingControl = none) (ht : l.transmitter = .idle) :
    l.refresh h true = { l with transmitter := .sendingHold h } := by
  rw [Link.refresh, if_pos ⟨hf, rfl, hc⟩, Link.sendControl_eq]
  cases l
  simp_all [controlAsked]

/-- R72: a refresh HOLD waits on a busy transmitter. -/
theorem Link.refresh_waits {h : Nat} {l : Link} (hf : l.flow = .held)
    (hc : l.waitingControl = none) (ht : l.transmitter ≠ .idle) :
    l.refresh h true = { l with waitingControl := some .hold } := by
  rw [Link.refresh, if_pos ⟨hf, rfl, hc⟩, Link.sendControl_eq]
  cases l
  simp_all [controlAsked]

/-- R72: the refresh point passes. -/
theorem Link.refresh_passes {h : Nat} {c : Bool} {l : Link}
    (hp : l.flow ≠ .held ∨ c = false ∨ l.waitingControl ≠ none) : l.refresh h c = l := by
  refine if_neg fun ⟨hf, hc, hw⟩ => ?_
  rcases hp with hp | hp | hp
  · exact hp hf
  · rw [hp] at hc
    cases hc
  · exact hp hw

theorem controlAsked_flow (h : Nat) (f : ControlFrame) (w : FlowState) (l : Link) :
    (controlAsked h f w l).flow = w := by
  unfold controlAsked
  split <;> rfl

/-- R72: the refresh point is one change of its link, which stays FLOWING or stays out of it. -/
theorem State.refreshLink_eq (n : Fin 4) (s : State) :
    s.refreshLink n =
      { s with links := s.links.set n (Link.refresh s.holdTime s.queue.congested
        { s.links[n] with holdTimer := some s.links[n].lastHold }) } := by
  refine State.changeLink_sameFlow ?_
  rw [Link.refresh]
  split
  · next h =>
    rw [Link.sendControl_eq, controlAsked_flow]
    exact h.1.symm
  · rfl

/-- R73: a hold that expires on a link held or about to be released. -/
theorem Link.expire_held {l : Link} (hf : l.flow = .held ∨ l.flow = .releasePending) :
    l.expire = { l with holdTimer := none, flow := .flowing, waitingControl := none } := by
  rw [Link.expire]
  rcases hf with hf | hf <;> rw [hf]

/-- R73: a hold that expires on any other link. -/
theorem Link.expire_other {l : Link} (hf : l.flow = .holdPending ∨ l.flow = .flowing) :
    l.expire = { l with holdTimer := none } := by
  rw [Link.expire]
  rcases hf with hf | hf <;> rw [hf]

/-- Settles O27, by the flow state, the congestion and the transmitter. -/
theorem refreshAndExpiry : Obligations.RefreshAndExpiry := by
  intro n h s ha ht
  refine ⟨fun hl => ?refresh, fun hf => ?held, fun hf => ?other⟩
  case refresh =>
    rw [exec_refreshPoint ha ht hl, State.refreshLink_eq]
    refine ⟨fun hf hc hw hi => ?_, fun hf hc hw hi => ?_, fun hp => ?_⟩
    · rw [hc, Link.refresh_begins
        (l := { s.links[n] with holdTimer := some s.links[n].lastHold }) hf hw hi]
    · rw [hc, Link.refresh_waits
        (l := { s.links[n] with holdTimer := some s.links[n].lastHold }) hf hw hi]
    · rw [Link.refresh_passes
        (l := { s.links[n] with holdTimer := some s.links[n].lastHold }) hp]
  case held =>
    rw [exec_holdExpiry ha ht, Link.expire_held hf, State.changeLink_returns
      (by rcases hf with hf | hf <;> rw [hf] <;> exact nofun) rfl]
  case other =>
    rw [exec_holdExpiry ha ht, Link.expire_other hf, State.changeLink_keeps (by exact Iff.rfl)]

/-! ## The presence timer (R80, R88) -/

theorem exec_presenceTimerExpiry {k : Fin 16} {s : State} (ha : s.awake = true)
    (hr : s.channels[k].timerMode = .running) :
    exec (.presenceTimerExpiry k) s = .next (s.expirePresence k) := congrArg _ (if_pos ⟨ha, hr⟩)

/-- The presence timer of a LIVE channel expires. -/
theorem State.expirePresence_live {k : Fin 16} {s : State} (hl : s.channels[k].state = .live) :
    s.expirePresence k = State.latch .channelSilent k { s with
      channels := s.channels.set k { s.channels[k] with
        state := .silent, wasSilent := true, timerMode := .stopped, timerHalves := 0 } } := by
  have hk (c : Channel) : (s.setChannel k c).channels[k] = c := by simp
  rw [State.expirePresence, State.silence_of_live (by rw [hk]; exact hl), hk]
  simp [State.setChannel, State.setChannels, silenced, State.latch]

/-- The presence timer of another channel expires. -/
theorem State.expirePresence_not_live {k : Fin 16} {s : State}
    (hl : s.channels[k].state ≠ .live) :
    s.expirePresence k = { s with
      channels := s.channels.set k { s.channels[k] with
        timerMode := .stopped, timerHalves := 0 } } := by
  have hk (c : Channel) : (s.setChannel k c).channels[k] = c := by simp
  rw [State.expirePresence, State.silence_of_not_live (by rw [hk]; exact hl)]
  rfl

/-- Settles O30, by the timer and the state of the channel. -/
theorem presenceTimerExpires : Obligations.PresenceTimerExpires := by
  refine fun k s ha => ⟨fun hr hl => ?_, fun hr hl => ?_, fun hr => ?_⟩
  · rw [exec_presenceTimerExpiry ha hr, State.expirePresence_live hl]
  · rw [exec_presenceTimerExpiry ha hr, State.expirePresence_not_live hl]
  · exact congrArg _ (if_neg fun h => hr h.2)

end Sys2Proof.Machine

/-!
PROOFS. Reception on a link (R59 to R62, R64, R66) and the break (R61): how characters make frames, which
frames are discarded, and what a good frame does to the queue and to the links.
-/

namespace Sys2Proof.Machine

/-! ## Characters (R59) -/

theorem State.endFrame_device (n : Fin 4) (x : List Byte) (b : Bool) (s : State) :
    (s.endFrame n x b).device = s.device := by
  cases h : checkFrame n x b with
  | none => rw [State.endFrame_bad s h, State.discardFrame]; simp
  | some e => rw [State.endFrame_good s h, State.goodFrame]; simp

theorem State.receiveCharacter_device (n : Fin 4) (char : Byte) (good : Bool) (s : State) :
    (s.receiveCharacter n char good).device = s.device := by
  rw [State.receiveCharacter]
  split
  · split
    · exact State.changeLink_device ..
    · rfl
  · rw [State.addCharacter]
    dsimp only
    split
    · exact State.endFrame_device ..
    · exact State.changeLink_device ..
  · rfl

theorem exec_characterReceived {n : Fin 4} {char : Byte} {good : Bool} {s : State}
    (ha : s.awake = true) :
    exec (.characterReceived n char good) s = .next (s.receiveCharacter n char good) :=
  congrArg _ (if_pos ha)

theorem exec_frameReceived {n : Fin 4} {c : LineChar} {rest : List LineChar} {s : State}
    (ha : s.awake = true) :
    exec (.frameReceived n c rest) s = .next (s.receiveCharacters n (c :: rest)) :=
  congrArg _ (if_pos ha)

/-- R59, log 6: a frame's characters arrive one after another. -/
theorem exec_frameReceived_cons {n : Fin 4} {c d : LineChar} {rest : List LineChar} {s t : State}
    (h : exec (.characterReceived n c.char c.goodStop) s = .next t) :
    exec (.frameReceived n c (d :: rest)) s = exec (.frameReceived n d rest) t := by
  cases ha : s.awake with
  | true =>
    rw [exec_characterReceived ha] at h
    cases h
    have hawake : (s.receiveCharacter n c.char c.goodStop).awake = true :=
      (State.awake_congr (State.receiveCharacter_device ..)).trans ha
    rw [exec_frameReceived ha, exec_frameReceived hawake]
    rfl
  | false =>
    have hidle (i : Instr) (u : State) (hi : exec i s = .next (if s.awake then u else s)) :
        exec i s = .next s := by rw [hi, ha]; rfl
    have ht : exec (.characterReceived n c.char c.goodStop) s = .next s := hidle _ _ rfl
    rw [ht] at h
    cases h
    exact (hidle (.frameReceived n c (d :: rest)) _ rfl).trans
      (hidle (.frameReceived n d rest) _ rfl).symm

section
variable {n : Fin 4} {char : Byte} {good : Bool} {s : State}

/-- A bad character begins no frame. -/
theorem State.receiveCharacter_waiting_bad (hw : s.links[n].receive = .waiting) :
    s.receiveCharacter n char false = s := by
  rw [State.receiveCharacter, hw]
  rfl

/-- A good character begins a frame. -/
theorem State.receiveCharacter_waiting_good (hw : s.links[n].receive = .waiting) :
    s.receiveCharacter n char true = { s with
      links := s.links.set n { s.links[n] with
        receive := .collecting, collected := [char], charError := false } } := by
  rw [State.receiveCharacter, hw]
  exact State.changeLink_sameFlow rfl

/-- A character short of the 25th is collected. -/
theorem State.receiveCharacter_collected (hc : s.links[n].receive = .collecting)
    (hl : s.links[n].collected.length + 1 < 25) :
    s.receiveCharacter n char good = { s with
      links := s.links.set n { s.links[n] with
        collected := s.links[n].collected ++ [char],
        charError := s.links[n].charError || !good } } := by
  have hlength : (s.links[n].collected ++ [char]).length ≠ Config.frameLength := by
    rw [List.length_append, Config.frameLength]
    exact hl.ne
  rw [State.receiveCharacter, hc]
  dsimp only
  rw [State.addCharacter]
  dsimp only
  rw [if_neg hlength]
  exact State.changeLink_sameFlow rfl

/-- The 25th character ends the frame. -/
theorem State.receiveCharacter_last (hc : s.links[n].receive = .collecting)
    (hl : s.links[n].collected.length + 1 = 25) :
    s.receiveCharacter n char good =
      s.endFrame n (s.links[n].collected ++ [char]) (s.links[n].charError || !good) := by
  have hlength : (s.links[n].collected ++ [char]).length = Config.frameLength := by
    rw [List.length_append, Config.frameLength]
    exact hl
  rw [State.receiveCharacter, hc]
  dsimp only
  rw [State.addCharacter]
  dsimp only
  rw [if_pos hlength]

/-- A character within a break is no character. -/
theorem State.receiveCharacter_spacing (hs : s.links[n].receive = .spacing) :
    s.receiveCharacter n char good = s := by
  rw [State.receiveCharacter, hs]

end

/-- Settles O22, by the state of the receiver. -/
theorem charactersAreAssembled : Obligations.CharactersAreAssembled := by
  refine ⟨fun n c d rest s t => ⟨rfl, exec_frameReceived_cons⟩, fun n char good s ha => ?_⟩
  refine ⟨fun hw => ⟨?_, ?_⟩, fun hc => ⟨fun hl => ?_, fun hl => ?_⟩, fun hs => ⟨?_, ?_⟩⟩
  · rw [exec_characterReceived ha, State.receiveCharacter_waiting_good hw]
  · rw [exec_characterReceived ha, State.receiveCharacter_waiting_bad hw]
  · rw [exec_characterReceived ha, State.receiveCharacter_collected hc hl]
  · rw [exec_characterReceived ha, State.receiveCharacter_last hc hl]
    refine ⟨_, rfl, ?_⟩
    exact State.endFrame_receiver ..
  · rw [exec_characterReceived ha, State.receiveCharacter_spacing hs]
  · exact congrArg Host.Outcome.next ((if_pos ⟨ha, hs⟩).trans (State.changeLink_sameFlow rfl))

/-! ## The checks of a frame (R60) -/

/-- A frame laid out with its CRC passes and carries its contents. -/
theorem checkFrame_bytes (e : FrameEntry) : checkFrame e.link e.bytes false = some e := by
  have hsub : (u8 e.subAddress.val).toNat = e.subAddress.val := toNat_u8 (by omega)
  simp [FrameEntry.bytes, quantityBytes, wordBytes, halfBytes, checkFrame, totalsFrame,
    halfOf_halfBytes, wordOf_wordBytes, quantityOf_quantityBytes, hsub]
  omega

theorem length_bytes (e : FrameEntry) : e.bytes.length = 25 := rfl

theorem checkFrame_charError (n : Fin 4) (f : List Byte) : checkFrame n f true = none := rfl

theorem checkFrame_length {n : Fin 4} {f : List Byte} {b : Bool} (h : f.length ≠ 25) :
    checkFrame n f b = none := by
  unfold checkFrame totalsFrame
  split
  · rfl
  · split
    · exact absurd rfl h
    · rfl

theorem checkFrame_kind {n : Fin 4} {kind sub : Byte} {rest : List Byte}
    (h : kind ≠ 0xA1 ∨ 3 < sub.toNat) : checkFrame n (kind :: sub :: rest) false = none := by
  unfold checkFrame totalsFrame
  rw [if_neg Bool.false_ne_true]
  split
  · next heq =>
    cases heq
    split
    · rfl
    · next hk =>
      rw [dif_neg (by have := h.resolve_left hk; omega)]
  · rfl

theorem checkFrame_crc {n : Fin 4} {f : List Byte} {hi lo : Byte} (hl : f.length = 23)
    (hc : hi ++ lo ≠ crc16 f) : checkFrame n (f ++ [hi, lo]) false = none := by
  repeat
    obtain ⟨_, rest, rfl, hrest⟩ := exists_cons hl
    clear hl
    rename' hrest => hl
  obtain rfl := List.length_eq_zero_iff.mp hl
  simp only [List.cons_append, List.nil_append, checkFrame, totalsFrame]
  rw [if_neg Bool.false_ne_true]
  split
  · rfl
  · split
    · exact if_pos hc
    · rfl

/-! ## The end of a frame (R59, R60, R62) -/

/-- The characters that end a frame end it. -/
theorem State.receiveCharacters_of_frameEnds {n : Fin 4} {c : LineChar} {rest : List LineChar}
    {f : List Byte} {bad : Bool} {s : State} (h : frameEnds s.links[n] c rest f bad) :
    s.receiveCharacters n (c :: rest) = s.endFrame n f bad := by
  obtain ⟨hlength, ⟨hr, rfl, rfl⟩ | ⟨hr, hg, rfl, rfl⟩⟩ := h
  · rw [List.length_append, List.length_map] at hlength
    exact State.receiveCharacters_collecting n (c :: rest) s hr (List.cons_ne_nil _ _) hlength
  · rw [List.length_map, List.length_cons] at hlength
    exact State.receiveCharacters_waiting n hr hg (by omega)

/-- A second change of a link stands in place of the first. -/
theorem State.changeLink_again {n : Fin 4} {l m : Link} {s : State} (h : m.flow = l.flow) :
    (s.setLinks (s.links.set n l)).changeLink n m = s.setLinks (s.links.set n m) := by
  rw [State.changeLink_sameFlow (by simp [h])]
  simp [State.setLinks]

theorem State.setLinks_link (n : Fin 4) (l : Link) (s : State) :
    (s.setLinks (s.links.set n l)).links[n] = l := by simp

/-- The end of a frame leaves its flow state, so it reaches the links alone. -/
theorem State.changeLink_ended (n : Fin 4) (s : State) :
    s.changeLink n
      { s.links[n] with receive := .waiting, collected := [], charError := false } =
      s.setLinks (s.links.set n (endedLink s.links[n])) := State.changeLink_sameFlow rfl

/-- R60: a frame that fails a check is discarded with its link's error mark. -/
theorem State.endFrame_discarded {n : Fin 4} {f : List Byte} {b : Bool} {s : State}
    (h : checkFrame n f b = none) :
    s.endFrame n f b = State.latch .linkError n { s with
      links := s.links.set n { endedLink s.links[n] with errorMark := true } } := by
  rw [State.endFrame_bad s h, State.changeLink_ended, State.discardFrame, State.setLinks_link,
    State.changeLink_again (by rfl)]
  rfl

/-- R60, R62: a frame that passes leaves BROKEN and is offered to the queue. -/
theorem State.endFrame_offered {n : Fin 4} {f : List Byte} {b : Bool} {e : FrameEntry} {s : State}
    (h : checkFrame n f b = some e) :
    s.endFrame n f b = State.offerFrame e (s.setLinks
      (s.links.set n { endedLink s.links[n] with breakState := .normal })) := by
  rw [State.endFrame_good s h, State.changeLink_ended, State.goodFrame, State.setLinks_link,
    State.changeLink_again (by rfl)]

/-- A frame cut short by an idle gap fails its length check. -/
theorem exec_idleGap {n : Fin 4} {s : State} (ha : s.awake = true)
    (hc : s.links[n].receive = .collecting) :
    exec (.idleGap n) s = .next (s.endFrame n s.links[n].collected s.links[n].charError) :=
  congrArg _ (if_pos ⟨ha, hc⟩)

/-- Settles O23, check by check. -/
theorem badFramesAreDiscarded : Obligations.BadFramesAreDiscarded := by
  refine ⟨fun e => ⟨length_bytes e, checkFrame_bytes e⟩, checkFrame_charError,
    fun _ _ => checkFrame_length, fun _ _ _ _ => checkFrame_kind, fun _ _ _ _ => checkFrame_crc,
    fun n c rest f bad s ha hf hn => ?_, fun n c d rest s ha hw hb => ⟨?_, ?_⟩,
    fun n s ha hc hl => ?_⟩
  · rw [exec_frameReceived ha, State.receiveCharacters_of_frameEnds hf, State.endFrame_discarded hn]
  · rw [exec_frameReceived ha, State.receiveCharacters_badFirst n [] hw hb]
    rfl
  · rw [exec_frameReceived ha, exec_frameReceived ha, State.receiveCharacters_badFirst n _ hw hb]
  · rw [exec_idleGap ha hc, State.endFrame_discarded (checkFrame_length hl.ne)]

/-! ## Hold requests (R68) -/

section
variable (h : Nat) {l : Link}

theorem Link.holdRequest_flowing (hf : l.flow = .flowing) :
    l.holdRequest h = controlAsked h .hold .holdPending l := by
  rw [Link.holdRequest, hf]
  exact Link.sendControl_eq ..

theorem Link.holdRequest_held (hf : l.flow = .holdPending ∨ l.flow = .held) :
    l.holdRequest h = l := by
  rw [Link.holdRequest]
  rcases hf with hf | hf <;> rw [hf]

/-- A RELEASE that waits behind a HOLD in transmission is withdrawn. -/
theorem Link.holdRequest_withdraws {carried : Nat} (hf : l.flow = .releasePending)
    (hw : l.waitingControl = some .release) (ht : l.transmitter = .sendingHold carried) :
    l.holdRequest h = { l with waitingControl := none, flow := .holdPending } := by
  rw [Link.holdRequest, hf]
  dsimp only
  rw [if_pos hw, ht]

/-- A RELEASE that waits behind no HOLD is withdrawn, and a HOLD asked for past the refresh
point. -/
theorem Link.holdRequest_waiting (hf : l.flow = .releasePending)
    (hw : l.waitingControl = some .release) (ht : ∀ carried, l.transmitter ≠ .sendingHold carried) :
    l.holdRequest h =
      if l.refreshPassed = true then controlAsked h .hold .held l
      else { l with waitingControl := none, flow := .held } := by
  rw [Link.holdRequest, hf, ← Link.sendControl_eq]
  dsimp only
  rw [if_pos hw]
  split
  · exact absurd ‹_› (ht _)
  · rfl

/-- A RELEASE in transmission stands, and a HOLD is asked for behind it. -/
theorem Link.holdRequest_sending (hf : l.flow = .releasePending)
    (hw : l.waitingControl ≠ some .release) :
    l.holdRequest h = controlAsked h .hold .holdPending l := by
  rw [Link.holdRequest, hf, ← Link.sendControl_eq]
  exact if_neg hw

end

/-! ## Good frames (R62, R64, R66) -/

/-- R74: a link that a hold request reaches freezes its channels' timers as it leaves FLOWING. -/
theorem retimed_holdRequest {s : State} (k : Fin 16) :
    retimed (s.flowing (linkOf k)) false s.channels[k] =
      if s.links[linkOf k].flow = .flowing then frozenOn (linkOf k) s k else s.channels[k] := by
  rw [← freezeTimer_eq, if_pos rfl, retimed, State.flowing]
  by_cases hf : s.links[linkOf k].flow = .flowing
  · rw [if_pos hf, hf]
    rfl
  · rw [if_neg hf, decide_eq_false hf]
    rfl

theorem getElem_set_link (v : Vector Link 4) (n m : Fin 4) (l : Link) :
    (v.set n l)[m] = if m = n then l else v[m] := by
  simp only [Fin.getElem_fin, Vector.getElem_set, Fin.ext_iff, eq_comm]

/-- A link record replaced by one with its flow state leaves every link's flow state. -/
theorem flow_of_set {v : Vector Link 4} {n : Fin 4} {l : Link} (h : l.flow = v[n].flow) (m : Fin 4) :
    (v.set n l)[m].flow = v[m].flow := by
  rw [getElem_set_link]
  split
  · next hm => rw [hm, h]
  · rfl

/-- Settles O24: a frame that passes, by the number of entries, and the hold request. -/
theorem goodFramesAreEnteredOrDropped : Obligations.GoodFramesAreEnteredOrDropped := by
  refine ⟨fun n c rest e s ha he hf => ?_, fun h l => ⟨Link.holdRequest_flowing h,
    Link.holdRequest_held h, fun hr hw => ⟨fun carried => Link.holdRequest_withdraws h hr hw,
      fun ht => ⟨fun halves hh hp => ?_, fun hb => ?_⟩⟩, Link.holdRequest_sending h⟩⟩
  · subst he
    have hexec : exec (.frameReceived e.link c rest) s =
        .next (State.offerFrame e (s.setLinks (s.links.set e.link
          { endedLink s.links[e.link] with breakState := .normal }))) := by
      rw [exec_frameReceived ha, State.receiveCharacters_of_frameEnds hf,
        State.endFrame_offered (checkFrame_bytes e)]
    rw [hexec]
    refine ⟨fun hl hc => ?_, fun hl hc => ?_, fun hl => ?_⟩
    · rw [State.offerFrame_entered (by exact hl) (by exact hc)]
      rfl
    · rw [State.offerFrame_congesting (by exact hl) (by exact hc)]
      refine ⟨_, rfl, ?_, fun m => ?_, fun m hm => ?_, fun k => ?_, ?_⟩
      · rw [State.eachLink_queue]
        rfl
      · rw [State.eachLink_link, State.setQueue_links, State.setLinks_links, getElem_set_link]
        rfl
      · rw [State.eachLink_link, Link.holdRequest_flowing, controlAsked_flow]
        exact (flow_of_set (by rfl) m).trans hm
      · rw [State.eachLink_channel, decide_eq_false (Link.holdRequest_flow _ _),
          ← retimed_holdRequest]
        congr 1
        exact congrArg (fun w => decide (w = .flowing)) (flow_of_set (v := s.links)
          (l := { endedLink s.links[e.link] with breakState := .normal }) rfl (linkOf k))
      · simp
    · rw [State.offerFrame_dropped (by exact hl), State.setLinks_link,
        State.changeLink_again (by rfl)]
      rfl
  · rw [Link.holdRequest_waiting h hr hw ht, if_pos]
    rw [Link.refreshPassed, hh]
    exact decide_eq_true hp
  · rw [Link.holdRequest_waiting h hr hw ht, if_neg]
    rw [Link.refreshPassed]
    split
    · next halves hh => simpa using hb halves hh
    · exact Bool.false_ne_true

/-! ## A break (R61, R88) -/

theorem exec_lineBreak {n : Fin 4} {s : State} (ha : s.awake = true)
    (hs : s.links[n].receive ≠ .spacing) : exec (.lineBreak n) s = .next (s.takeBreak n) :=
  congrArg Host.Outcome.next (if_pos ⟨ha, hs⟩)

/-- A break is a change of the link that keeps its flow state, then silence on it, then the latch. -/
theorem State.takeBreak_eq (n : Fin 4) (s : State) :
    s.takeBreak n =
      ((s.setLinks (s.links.set n { s.links[n] with
        receive := .spacing, collected := [], charError := false,
        breakState := .broken })).silenceLink n).latch .linkBreak n := by
  rw [State.takeBreak, State.changeLink_sameFlow (by rfl)]

/-- Settles O25, by whether the line is spacing already. -/
theorem breakSilencesTheLink : Obligations.BreakSilencesTheLink := by
  refine fun n s ha => ⟨fun hs => ⟨s.takeBreak n, exec_lineBreak ha hs, ?_⟩,
    fun hs => congrArg Host.Outcome.next (if_neg fun h => h.2 hs)⟩
  have hmem : ∀ p ∈ s.attention.pendingSet, p ∈ (s.takeBreak n).attention.pendingSet := by
    intro p hp
    rw [State.takeBreak_eq, State.mem_latch, State.mem_silenceLink]
    exact .inr (.inr hp)
  refine ⟨?_, fun k => ?_, fun k hk hl => ?_, ?_, hmem, ?_⟩
  · rw [State.takeBreak_eq, State.latch_links, State.silenceLink_links, State.setLinks_links]
  · rw [State.takeBreak_eq, State.latch_channels, State.silenceLink_channel]
    rfl
  · rw [State.takeBreak_eq, State.mem_latch, State.mem_silenceLink]
    exact .inr (.inl ⟨k, hk, hl, rfl⟩)
  · rw [State.takeBreak_eq, State.mem_latch]
    exact .inl rfl
  · simp [State.takeBreak_eq]

end Sys2Proof.Machine

/-!
PROOFS. The channel unit: taking an entry (R65, R66, R69), the judgement of a frame (R81 to R91), the seal
(R93 to R96), and the commands on channels (R98 to R101).
-/

namespace Sys2Proof.Machine

/-! ## Release requests (R69) -/

section
variable (h : Nat) {l : Link}

theorem Link.releaseRequest_idle (hf : l.flow = .flowing ∨ l.flow = .releasePending) :
    l.releaseRequest h = l := by
  rw [Link.releaseRequest]
  rcases hf with hf | hf <;> rw [hf]

/-- A HOLD that waits behind a RELEASE in transmission is withdrawn. -/
theorem Link.releaseRequest_behind_release (hf : l.flow = .holdPending)
    (hw : l.waitingControl = some .hold) (ht : l.transmitter = .sendingRelease) :
    l.releaseRequest h = { l with waitingControl := none, flow := .releasePending } := by
  rw [Link.releaseRequest, hf]
  dsimp only
  rw [if_pos hw, ht]

/-- A HOLD that waits behind another frame is withdrawn. -/
theorem Link.releaseRequest_behind_other (hf : l.flow = .holdPending)
    (hw : l.waitingControl = some .hold) (ht : l.transmitter ≠ .sendingRelease) :
    l.releaseRequest h = { l with waitingControl := none, flow := .flowing } := by
  rw [Link.releaseRequest, hf]
  dsimp only
  rw [if_pos hw]
  split
  · exact absurd ‹_› ht
  · rfl

theorem Link.releaseRequest_sending (hf : l.flow = .holdPending)
    (hw : l.waitingControl ≠ some .hold) :
    l.releaseRequest h = controlAsked h .release .releasePending l := by
  rw [Link.releaseRequest, hf, ← Link.sendControl_eq]
  exact if_neg hw

theorem Link.releaseRequest_held (hf : l.flow = .held) :
    l.releaseRequest h = controlAsked h .release .releasePending l := by
  rw [Link.releaseRequest, hf]
  exact Link.sendControl_eq ..

end

/-! ## Taking an entry (R65, R66) -/

section
variable {rest : List FrameEntry} {s : State}

/-- R66: the entry that leaves 16 behind it ends the congestion. -/
theorem State.removeHead_links_released (hl : rest.length = 16) (hc : s.queue.congested = true)
    (n : Fin 4) : (s.removeHead rest).links[n] = Link.releaseRequest s.holdTime s.links[n] := by
  rw [State.removeHead]
  dsimp only
  rw [if_pos ⟨hl, hc⟩, State.noteMarkerAtHead_links, State.eachLink_link]
  rfl

theorem State.removeHead_links_kept (h : rest.length ≠ 16 ∨ s.queue.congested = false) :
    (s.removeHead rest).links = s.links := by
  rw [State.removeHead]
  dsimp only
  rw [if_neg, State.noteMarkerAtHead_links]
  · rfl
  · rintro ⟨hl, hc⟩
    exact h.elim (fun h => h hl) fun h => by rw [show s.queue.congested = true from hc] at h; cases h

/-- R74: an entry's leaving reloads the timers of the links that it makes FLOWING. -/
theorem State.removeHead_reloads (k : Fin 16) :
    (s.removeHead rest).channels[k] =
      if s.links[linkOf k].flow ≠ .flowing ∧ (s.removeHead rest).links[linkOf k].flow = .flowing then
        reloadedOn (linkOf k) s k
      else s.channels[k] := by
  rw [State.removeHead_channel, ← reloadTimer_eq, if_pos rfl, State.flowing, State.flowing]
  by_cases hw : s.links[linkOf k].flow = .flowing
  · rw [if_neg fun h => h.1 hw, hw, State.removeHead_flowing rest hw, retimed_same]
  · rw [decide_eq_false hw]
    by_cases hn : (s.removeHead rest).links[linkOf k].flow = .flowing
    · rw [if_pos ⟨hw, hn⟩, decide_eq_true hn]
      rfl
    · rw [if_neg fun h => hn h.2, decide_eq_false hn]
      rfl

theorem State.removeHead_channels :
    (s.removeHead rest).channels = Vector.ofFn fun k : Fin 16 =>
      if s.links[linkOf k].flow ≠ .flowing ∧ (s.removeHead rest).links[linkOf k].flow = .flowing then
        reloadedOn (linkOf k) s k
      else s.channels[k] := by
  refine Vector.ext fun k hk => ?_
  rw [Vector.getElem_ofFn]
  exact State.removeHead_reloads ⟨k, hk⟩

theorem exec_takeFrameEntry {e : FrameEntry} (ha : s.awake = true) (hm : s.markerAtHead = false)
    (he : s.queue.entries = e :: rest) :
    exec .takeFrameEntry s = .next ((s.removeHead rest).takeFrame e) := by
  refine congrArg Host.Outcome.next ((if_pos (by rw [ha, hm]; rfl)).trans ?_)
  rw [he]
  rfl

end

/-- Settles O31: the entry that leaves, its judgement, and the release request. -/
theorem takingAnEntry : Obligations.TakingAnEntry := by
  refine ⟨fun e rest s ha hm he => ⟨_, exec_takeFrameEntry ha hm he, ?_, ?_, ?_,
    fun q hq hp hr => ⟨?_, ?_⟩, fun h => ?_, fun hl hc n => ?_, ⟨?_, fun k hk => ?_⟩, ?_, ?_, ?_, ?_,
    fun p hp => ?_⟩,
    fun h l => ⟨Link.releaseRequest_idle h, fun hf hw => ⟨Link.releaseRequest_behind_release h hf hw,
      Link.releaseRequest_behind_other h hf hw⟩, Link.releaseRequest_sending h,
      Link.releaseRequest_held h⟩⟩
  · rw [State.takeFrame_queue, State.removeHead_queue]
  · rw [State.takeFrame_queue, State.removeHead_queue]
  · rw [State.takeFrame_queue, State.removeHead_queue]
  · simp [State.removeHead_sweep, hq, hp, hr]
  · rw [State.mem_takeFrame, State.mem_removeHead]
    exact .inr (.inl ⟨rfl, ⟨q, hq, hp.le⟩, hr⟩)
  · rw [State.takeFrame_links, State.removeHead_links_kept h]
  · rw [State.takeFrame_links, State.removeHead_links_released hl hc]
  · rw [State.takeFrame_links, ← State.removeHead_channels, State.takeFrame_channels,
      State.removeHead_clock]
    rfl
  · rw [State.takeFrame_links, ← State.removeHead_channels] at hk
    rw [State.mem_takeFrame, State.removeHead_clock]
    exact .inl ⟨hk, rfl⟩
  · simp
  · simp
  · simp
  · simp
  · rw [State.mem_takeFrame, State.mem_removeHead]
    exact .inr (.inr hp)

/-! ## The judgement of a frame (R81 to R91) -/

section
variable {second : Word} {e : FrameEntry} {r : Channel}

theorem sequenceDistance_eq {q : Byte} (hq : r.lastSequence = some q) :
    sequenceDistance e r = e.sequence - q := by
  rw [sequenceDistance, hq]
  rfl

theorem increments_eq {p : Triple Word} (hp : r.lastTotals = some p) :
    (increments e r).map BitVec.toNat = incrementsOver p e := by
  rw [increments, hp]
  rfl

/-- R85: a frame is implausible when the bound of some last accepted second is passed. -/
theorem implausible_iff {p : Triple Word} {w : Word} (hp : r.lastTotals = some p)
    (hw : r.ratedPower = some w) :
    implausible second e r = true ↔
      ∃ m, r.lastSecond = some m ∧
        beyondBound w.toNat (second - m).toNat (incrementsOver p e) := by
  rw [implausible, elapsedSeconds, increments, hp, hw]
  cases r.lastSecond with
  | none => simp
  | some m =>
    simp only [Option.map_some, Triple.any, Bool.or_eq_true, decide_eq_true_eq, or_assoc]
    exact ⟨fun h => ⟨m, rfl, h⟩, fun ⟨_, hm, h⟩ => by cases hm; exact h⟩

/-- R83: a repeated or late frame is dropped. -/
theorem judgeSequence_late {q : Byte} (hq : r.lastSequence = some q)
    (h : e.sequence - q = 0 ∨ 128 ≤ (e.sequence - q).toNat) :
    judgeSequence second e r = (r, []) := by
  rw [judgeSequence, sequenceDistance_eq hq]
  exact if_pos h

theorem judgeSequence_implausible {q : Byte} {p : Triple Word} {w m : Word}
    (hq : r.lastSequence = some q) (hp : r.lastTotals = some p) (hw : r.ratedPower = some w)
    (h0 : e.sequence - q ≠ 0) (h128 : (e.sequence - q).toNat < 128) (hm : r.lastSecond = some m)
    (hb : beyondBound w.toNat (second - m).toNat (incrementsOver p e)) :
    judgeSequence second e r = implausibleFrame second e r := by
  rw [judgeSequence, sequenceDistance_eq hq, if_neg (by simp only [not_or, not_le]; exact ⟨h0, h128⟩),
    if_pos ((implausible_iff hp hw).mpr ⟨m, hm, hb⟩)]

theorem judgeSequence_plausible {q : Byte} {p : Triple Word} {w : Word}
    (hq : r.lastSequence = some q) (hp : r.lastTotals = some p) (hw : r.ratedPower = some w)
    (h0 : e.sequence - q ≠ 0) (h128 : (e.sequence - q).toNat < 128)
    (hb : ∀ m, r.lastSecond = some m →
      ¬beyondBound w.toNat (second - m).toNat (incrementsOver p e)) :
    judgeSequence second e r = acceptFrame second e r := by
  rw [judgeSequence, sequenceDistance_eq hq, if_neg (by simp only [not_or, not_le]; exact ⟨h0, h128⟩), if_neg]
  rw [implausible_iff hp hw]
  rintro ⟨m, hm, hbeyond⟩
  exact hb m hm hbeyond

/-- R85: the first two of a run of implausible frames are counted. -/
theorem implausibleFrame_counted (h : r.implausibleRun < 2) :
    implausibleFrame second e r =
      ({ r with implausibleRun := r.implausibleRun + 1 }, [.implausible]) := if_pos (by omega)

/-- R86: the third re-baselines a LIVE channel. -/
theorem implausibleFrame_live (h : 2 ≤ r.implausibleRun) (hs : r.state = .live) :
    implausibleFrame second e r =
      ({ accepting second e r with openEstimated := true }, [.implausible]) := by
  rw [implausibleFrame, if_neg (by omega), rebaseline]
  dsimp only
  rw [if_neg (by rw [hs]; exact nofun)]
  rfl

theorem satAdd_zero (q : Quantity) : satAdd q 0 = q := by
  rw [satAdd, if_pos (by have := q.isLt; rw [Config.maxQuantity]; omega), Nat.add_zero]
  exact BitVec.eq_of_toNat_eq (by simp)

theorem addTriple_zero (q : Triple Quantity) : addTriple q (Triple.same 0) = q := by
  simp only [addTriple, Triple.zip, Triple.same, satAdd_zero]

theorem setOff_zero (credit : Triple Quantity) : setOff (Triple.same 0) credit = Triple.same 0 := by
  simp only [setOff, Triple.zip, Triple.same, Nat.zero_sub]

theorem fallsShort_iff (d : Triple Nat) (credit : Triple Quantity) :
    fallsShort d credit = true ↔
      d.active < credit.active.toNat ∨ d.lagging < credit.lagging.toNat ∨
        d.leading < credit.leading.toNat := by
  simp only [fallsShort, Bool.or_eq_true, decide_eq_true_eq, or_assoc]

/-- R90: a channel under HOLD_LAST resumes. -/
theorem resume_holdLast {d : Triple Nat} {c : Channel} (hp : c.policy = .holdLast) :
    resume d c =
      ({ c with
          state := .live, silenceSpannedSeal := false, credit := Triple.same 0,
          openWindow := addTriple c.openWindow (setOff d c.credit) },
        if fallsShort d c.credit = true then [.channelResumed, .substitutionExcess]
        else [.channelResumed]) := by
  rw [resume]
  split
  · rfl
  · next h => rw [hp] at h; cases h

/-- R91: a channel under DEFER resumes. -/
theorem resume_defer {d : Triple Nat} {c : Channel} (hp : c.policy = .defer) :
    resume d c =
      ({ c with
          state := .live, silenceSpannedSeal := false, credit := Triple.same 0,
          openCatchUp := if c.silenceSpannedSeal then addTriple c.openCatchUp d else c.openCatchUp,
          openWindow := if c.silenceSpannedSeal then c.openWindow else addTriple c.openWindow d },
        [.channelResumed]) := by
  rw [resume]
  split
  · next h => rw [hp] at h; cases h
  · split <;> rfl

/-- R86, R89 to R91: the third re-baselines a SILENT channel, which resumes with no increments. -/
theorem implausibleFrame_silent (h : 2 ≤ r.implausibleRun) (hs : r.state = .silent) :
    implausibleFrame second e r =
      ({ accepting second e r with
          state := .live, openEstimated := true, silenceSpannedSeal := false,
          credit := Triple.same 0 },
        if r.policy = .holdLast ∧ (0 < r.credit.active.toNat ∨
            0 < r.credit.lagging.toNat ∨ 0 < r.credit.leading.toNat) then
          [.implausible, .channelResumed, .substitutionExcess]
        else [.implausible, .channelResumed]) := by
  have hbase : rebaseline second e r =
      resume (Triple.same 0) { accepting second e r with openEstimated := true } := if_pos hs
  rw [implausibleFrame, if_neg (by omega), hbase]
  cases hp : r.policy with
  | holdLast =>
    have hshort := fallsShort_iff (Triple.same 0) r.credit
    rw [resume_holdLast (by exact hp), setOff_zero, addTriple_zero]
    by_cases hf : fallsShort (Triple.same 0) r.credit = true
    · rw [if_pos (by exact hf), if_pos ⟨rfl, hshort.mp hf⟩]
    · rw [if_neg (by exact hf), if_neg fun hc => hf (hshort.mpr hc.2)]
  | defer =>
    rw [resume_defer (by exact hp), addTriple_zero, addTriple_zero, ite_self, ite_self,
      if_neg fun hc => Policy.noConfusion hc.1]

/-- R87: a plausible frame of a LIVE channel counts in its open window. -/
theorem acceptFrame_live {p : Triple Word} (hp : r.lastTotals = some p) (hs : r.state = .live) :
    acceptFrame second e r =
      ({ accepting second e r with
          openEstimated := r.openEstimated || e.sourceStatus.getLsbD 0,
          openWindow := addTriple r.openWindow (incrementsOver p e) }, []) := by
  rw [acceptFrame, increments_eq hp, placeIncrements, if_neg (by rw [recordFrame, hs]; exact nofun)]
  rfl

/-- R91: a SILENT channel under DEFER resumes with all it has counted. -/
theorem acceptFrame_defer {p : Triple Word} (hp : r.lastTotals = some p) (hs : r.state = .silent)
    (hd : r.policy = .defer) :
    acceptFrame second e r =
      ({ accepting second e r with
          state := .live, silenceSpannedSeal := false, credit := Triple.same 0,
          openEstimated := r.openEstimated || e.sourceStatus.getLsbD 0,
          openCatchUp := if r.silenceSpannedSeal then
              addTriple r.openCatchUp (incrementsOver p e) else r.openCatchUp,
          openWindow := if r.silenceSpannedSeal then r.openWindow
            else addTriple r.openWindow (incrementsOver p e) },
        [.channelResumed]) := by
  rw [acceptFrame, increments_eq hp, placeIncrements, if_pos (by exact hs),
    resume_defer (by exact hd)]
  rfl

/-- R90: a SILENT channel under HOLD_LAST resumes with what its credit leaves of the increments. -/
theorem acceptFrame_holdLast {p : Triple Word} (hp : r.lastTotals = some p) (hs : r.state = .silent)
    (hd : r.policy = .holdLast) :
    acceptFrame second e r =
      ({ accepting second e r with
          state := .live, silenceSpannedSeal := false, credit := Triple.same 0,
          openEstimated := r.openEstimated || e.sourceStatus.getLsbD 0,
          openWindow := addTriple r.openWindow
            ⟨(incrementsOver p e).active - r.credit.active.toNat,
              (incrementsOver p e).lagging - r.credit.lagging.toNat,
              (incrementsOver p e).leading - r.credit.leading.toNat⟩ },
        if (incrementsOver p e).active < r.credit.active.toNat ∨
            (incrementsOver p e).lagging < r.credit.lagging.toNat ∨
            (incrementsOver p e).leading < r.credit.leading.toNat then
          [.channelResumed, .substitutionExcess]
        else [.channelResumed]) := by
  rw [acceptFrame, increments_eq hp, placeIncrements, if_pos (by exact hs),
    resume_holdLast (by exact hd)]
  simp only [← fallsShort_iff]
  rfl

end

/-- R81: a frame of the meter a channel has registered is judged with the timer reloaded. -/
theorem judgeFrame_registered {flowing : Bool} {second : Word} {e : FrameEntry} {c : Channel}
    (hu : c.state ≠ .unregistered) (hi : c.identity = some e.identity) :
    judgeFrame flowing second e c =
      if c.state = .awaiting then
        (baseline second e (if flowing then withTimer true c else c), [])
      else judgeSequence second e (if flowing then withTimer true c else c) := by
  rw [judgeFrame, if_neg hu, if_neg (not_not.mpr hi), reloadTimer, if_neg hu]
  rfl

/-- Settles O32, by the state of the channel and the checks in their order. -/
theorem framesAreJudgedInOrder : Obligations.FramesAreJudgedInOrder := by
  intro flowing second e c
  refine ⟨fun hu => if_pos hu, fun hu hi => (if_neg hu).trans (if_pos hi), fun ha hi => ?_,
    fun q p w hs hi hq hp hw => ?_⟩
  · rw [judgeFrame_registered (by rw [ha]; exact nofun) hi, if_pos ha]
    rfl
  · have hjudge : judgeFrame flowing second e c =
        judgeSequence second e (if flowing then withTimer true c else c) := by
      rw [judgeFrame_registered (by rcases hs with hs | hs <;> rw [hs] <;> exact nofun) hi,
        if_neg (by rcases hs with hs | hs <;> rw [hs] <;> exact nofun)]
    rw [hjudge]
    clear hjudge
    cases flowing
    all_goals
      refine ⟨fun h => judgeSequence_late hq h, fun m h0 h128 hm hb => ?_, fun h0 h128 hb => ?_⟩
      · rw [judgeSequence_implausible (by exact hq) (by exact hp) (by exact hw) h0 h128
          (by exact hm) hb]
        exact ⟨fun hr => implausibleFrame_counted hr, fun hr hs => implausibleFrame_live hr hs,
          fun hr hs => implausibleFrame_silent hr hs⟩
      · rw [judgeSequence_plausible (by exact hq) (by exact hp) (by exact hw) h0 h128 (by exact hb)]
        exact ⟨fun hs => acceptFrame_live hp hs, fun hs hd => acceptFrame_defer hp hs hd,
          fun hs hd => acceptFrame_holdLast hp hs hd⟩

end Sys2Proof.Machine

/-!
PROOFS. The seal and the start of a sweep (R93 to R96, R105, R106), and the commands on channels (R98 to
R101).
-/

namespace Sys2Proof.Machine

/-! ## The seal (R93 to R96) -/

section
variable {c : Channel}

theorem sealChannel_live (h : c.state = .live) : sealChannel c = clearOpen (sealLive c) := by
  rw [sealChannel, h]

theorem sealChannel_silent (h : c.state = .silent) : sealChannel c = clearOpen (sealSilent c) := by
  rw [sealChannel, h]

theorem sealChannel_awaiting (h : c.state = .awaiting) :
    sealChannel c = clearOpen (sealAwaiting c) := by
  rw [sealChannel, h]

theorem sealChannel_unregistered (h : c.state = .unregistered) :
    sealChannel c = clearOpen (sealUnregistered c) := by
  rw [sealChannel, h]

/-- R95: the seal of a SILENT channel under each policy. -/
theorem sealSilent_eq (c : Channel) :
    sealSilent c = { c with
      sealedWindow := if c.policy = .holdLast then filledWindow c else c.openWindow,
      credit := if c.policy = .holdLast then raisedCredit c else c.credit,
      sealedCatchUp := c.openCatchUp, sealedEstimated := true, silenceSpannedSeal := true,
      wasSilent := true } := by
  rw [sealSilent]
  split
  · next h => simp only [h, if_true]
  · next h => simp only [h, reduceCtorEq, if_false]

end

/-- R93: the seal empties the open parts and reaches no more than a channel's accounting. -/
theorem sealChannel_frame (c : Channel) :
    (sealChannel c).openWindow = Triple.same 0 ∧ (sealChannel c).openCatchUp = Triple.same 0 ∧
      (sealChannel c).openEstimated = false ∧
      sealChannel c = { c with
        openWindow := (sealChannel c).openWindow, openCatchUp := (sealChannel c).openCatchUp,
        openEstimated := (sealChannel c).openEstimated,
        sealedWindow := (sealChannel c).sealedWindow,
        sealedCatchUp := (sealChannel c).sealedCatchUp,
        sealedEstimated := (sealChannel c).sealedEstimated, reference := (sealChannel c).reference,
        credit := (sealChannel c).credit,
        silenceSpannedSeal := (sealChannel c).silenceSpannedSeal,
        wasSilent := (sealChannel c).wasSilent } := by
  refine ⟨rfl, rfl, rfl, ?_⟩
  cases h : c.state with
  | live =>
    rw [sealChannel_live h, clearOpen, sealLive, h]
  | silent =>
    rw [sealChannel_silent h, sealSilent_eq, clearOpen, h]
  | awaiting =>
    rw [sealChannel_awaiting h, clearOpen, sealAwaiting, h]
  | unregistered =>
    rw [sealChannel_unregistered h, clearOpen, sealUnregistered, h]

/-- R93 to R96, R105, R106: what the taking of a marker makes. -/
theorem State.startSweep_markerTaken (m : Marker) (s : State) :
    markerTaken m s (s.startSweep m) := by
  refine ⟨State.startSweep_queue .., State.startSweep_clock .., State.startSweep_sweep ..,
    fun i => State.startSweep_slot .., fun k => ?_, State.startSweep_links ..,
    State.startSweep_directory .., State.startSweep_tariff .., State.startSweep_attention ..,
    State.startSweep_port .., State.startSweep_device .., State.startSweep_holdTime ..,
    State.startSweep_pending ..⟩
  dsimp only
  rw [State.startSweep_channel]
  obtain ⟨hwindow, hcatchUp, hestimated, hframe⟩ := sealChannel_frame s.channels[k]
  refine ⟨hwindow, hcatchUp, hestimated, hframe, fun h => ?_, fun h => ?_, fun h => ?_, fun h => ?_⟩
  · rw [sealChannel_live h]
    refine ⟨rfl, rfl, rfl, rfl, rfl, rfl, ?_⟩
    simp [clearOpen, sealLive]
  · rw [sealChannel_silent h, sealSilent_eq]
    exact ⟨rfl, rfl, rfl, rfl, rfl, rfl, rfl⟩
  · rw [sealChannel_awaiting h]
    exact ⟨rfl, rfl, rfl, rfl, rfl, rfl, rfl⟩
  · rw [sealChannel_unregistered h]
    exact ⟨rfl, rfl, rfl, rfl, rfl, rfl, rfl⟩

/-- Settles O33, by the start of the sweep. -/
theorem takingTheMarkerSealsAndStarts : Obligations.TakingTheMarkerSealsAndStarts := by
  intro q s ha hq hp hr
  refine ⟨s.startSweep q.marker, ?_, State.startSweep_markerTaken q.marker s⟩
  have hhead : s.markerAtHead = true := by
    rw [State.markerAtHead, hq]
    exact beq_iff_eq.mpr hp
  refine congrArg Host.Outcome.next ((if_pos (by rw [ha, hhead, hr]; rfl)).trans ?_)
  rw [State.takeMarker, hq]

/-! ## The commands on channels (R98 to R101) -/

theorem reloadTimer_of_registered {flowing : Bool} {c : Channel} (h : c.state ≠ .unregistered) :
    reloadTimer flowing c = withTimer flowing c := if_neg h

/-- R98, R99: the record after REGISTER METER. -/
theorem registered_eq (flowing : Bool) (identity : Quantity) (rated : Word) (c : Channel) :
    registered flowing identity rated c =
      withTimer flowing
        (if c.state = .unregistered then newRegistration identity rated c
        else replacement identity rated c) := by
  rw [registered, reloadTimer_of_registered]
  split <;> exact nofun

/-- R101: the record after SET CHANNEL POLICY. -/
theorem withPolicy_eq (flowing : Bool) (policy : Policy) (timeout : Nat) (rated : Word)
    (c : Channel) :
    withPolicy flowing policy timeout rated c =
      let d := { c with
        policy := policy, timeout := timeout, ratedPower := some rated,
        credit := if c.policy = .holdLast ∧ policy = .defer then Triple.same 0 else c.credit }
      if d.state = .unregistered then d else withTimer flowing d := rfl

/-- R100: the record of a channel released that no feed term names. -/
theorem released_eq {c : Channel} (h : c.referenceCount = 0) :
    released c =
      { Channel.cleared with
        sealedWindow := c.sealedWindow, sealedCatchUp := c.sealedCatchUp,
        sealedEstimated := c.sealedEstimated } := by
  rw [released, h]
  rfl

theorem policyOf_of_gt {b : Byte} (h : 1 < b.toNat) : policyOf b = none := by
  have h0 : b ≠ 0 := by rintro rfl; exact absurd h (by decide)
  have h1 : b ≠ 1 := by rintro rfl; exact absurd h (by decide)
  rw [policyOf, if_neg h0, if_neg h1]

theorem actSetChannelPolicy_refused {b policy timeout : Byte} {rated : Word} {s : State}
    (h : 15 < b.toNat ∨ 1 < policy.toNat ∨ timeout.toNat < 2 ∨ 60 < timeout.toNat ∨ rated = 0) :
    actSetChannelPolicy b policy timeout rated s = (s, ⟨.badOperand, []⟩) := by
  rw [actSetChannelPolicy]
  split
  · next k p hk hp =>
    refine if_pos ?_
    rcases h with h | h | h
    · rw [channelOf_of_gt h] at hk
      cases hk
    · rw [policyOf_of_gt h] at hp
      cases hp
    · exact h
  · rfl

/-- Settles O28, command by command. -/
theorem channelCommandsSetTheRecord : Obligations.ChannelCommandsSetTheRecord := by
  refine ⟨fun b identity rated s ha => ⟨fun h => ?_, fun k hk hi hr => ?_⟩,
    fun b s ha => ⟨fun h => ?_, fun k hk => ⟨fun hc => ?_, fun hc hu => ?_, fun hc hu => ?_⟩⟩,
    fun b policy timeout rated s ha => ⟨fun h => ?_, fun k q hk hq hl hg hr => ?_⟩⟩
  · refine exec_of_accepts (act := actRegisterMeter b identity rated) rfl ha ?_
    rw [actRegisterMeter]
    split
    · rfl
    · next k hk =>
      refine if_pos (h.resolve_left fun hb => ?_)
      rw [channelOf_of_gt hb] at hk
      cases hk
  · refine exec_of_accepts (act := actRegisterMeter b identity rated) rfl ha ?_
    rw [actRegisterMeter, channelOf_of_eq hk]
    dsimp only
    rw [if_neg (not_or.mpr ⟨hi, hr⟩), registered_eq]
    rfl
  · refine exec_of_accepts (act := actReleaseMeter b) rfl ha ?_
    rw [actReleaseMeter, channelOf_of_gt h]
    rfl
  · refine exec_of_accepts (act := actReleaseMeter b) rfl ha ?_
    rw [actReleaseMeter, channelOf_of_eq hk]
    exact if_pos hc
  · refine exec_of_accepts (act := actReleaseMeter b) rfl ha ?_
    rw [actReleaseMeter, channelOf_of_eq hk]
    exact (if_neg (not_not.mpr hc)).trans (if_pos hu)
  · refine exec_of_accepts (act := actReleaseMeter b) rfl ha ?_
    rw [actReleaseMeter, channelOf_of_eq hk]
    refine (if_neg (not_not.mpr hc)).trans ((if_neg hu).trans ?_)
    rw [released_eq hc]
    rfl
  · exact exec_of_accepts (act := actSetChannelPolicy b policy timeout rated) rfl ha
      (actSetChannelPolicy_refused h)
  · refine exec_of_accepts (act := actSetChannelPolicy b policy timeout rated) rfl ha ?_
    rw [actSetChannelPolicy, channelOf_of_eq hk, hq]
    refine (if_neg (by simp only [not_or, not_lt]; exact ⟨hl, hg, hr⟩)).trans ?_
    rw [withPolicy_eq]
    rfl

end Sys2Proof.Machine

/-!
PROOFS. The account table: the order every account command passes through (R13), OPEN ACCOUNT, the reads,
and the commands on a period's close and on suspension (R14 to R20, R126, R142 to R147, R155, R156).
-/

namespace Sys2Proof.Machine

/-! ## The order of an account command (R13) -/

theorem State.bring_of_settled {account : Word} {i : Fin 32} {s : State}
    (h : settled account i s) : s.bring i = s := by
  obtain ⟨-, hbehind, hverified⟩ := h
  rw [State.bring, hbehind, if_neg Bool.false_ne_true, if_neg]
  rw [Bool.and_eq_true, Bool.not_eq_true']
  rintro ⟨hs, hv⟩
  rw [hverified hs] at hv
  cases hv

/-- R13: an account command on a settled account that it is permitted on comes to its own rule. -/
theorem accountCommand_of_settled {account : Word} {i : Fin 32} {s : State} {permitted : Bool}
    (own : Fin 32 → State → State × Response) (h : settled account i s)
    (hp : permitted = true ∨ s.slots[i].state ≠ .faulted) :
    accountCommand account permitted own s = own i s := by
  rw [accountCommand, h.1]
  dsimp only
  rw [State.bring_of_settled h, if_neg]
  rintro ⟨hf, hb⟩
  rcases hp with hp | hp
  · rw [hp] at hb
    cases hb
  · exact hp hf

/-! ## The contract check (R15) -/

section
variable {image : ContractImage} {s : State}

theorem State.contractCheck_fields (h : contractFieldsOk image = false) :
    s.contractCheck image = some .badOperand := if_pos (by rw [h]; exact Bool.false_ne_true)

theorem State.contractCheck_feed (h : contractFieldsOk image = true)
    (hd : noDuplicateFeed image.terms = false) :
    s.contractCheck image = some .duplicateFeed := by
  rw [State.contractCheck, h, hd]
  rfl

theorem State.contractCheck_schedule (h : contractFieldsOk image = true)
    (hd : noDuplicateFeed image.terms = true)
    (hl : s.scheduleLoaded image.schedule.toNat = false) :
    s.contractCheck image = some .badSchedule := by
  rw [State.contractCheck, h, hd, hl]
  rfl

theorem State.contractCheck_channel (h : contractFieldsOk image = true)
    (hd : noDuplicateFeed image.terms = true)
    (hl : s.scheduleLoaded image.schedule.toNat = true)
    (hr : ∃ u ∈ image.terms, s.registered u.channel.toNat = false) :
    s.contractCheck image = some .channelUnregistered := by
  have hall : (image.terms.all fun t => s.registered t.channel.toNat) = false := by
    simpa using hr
  rw [State.contractCheck, h, hd, hl, hall]
  rfl

end

/-! ## OPEN ACCOUNT (R14 to R16) -/

theorem State.lowestVacant_eq_none {s : State} (h : ∀ i : Fin 32, s.slots[i].state ≠ .vacant) :
    s.lowestVacant = none :=
  List.find?_eq_none.mpr fun i _ => by simpa [-Fin.getElem_fin] using h i

theorem State.lowestVacant_eq_some {i : Fin 32} {s : State} (hi : s.slots[i].state = .vacant)
    (h : ∀ j : Fin 32, j < i → s.slots[j].state ≠ .vacant) : s.lowestVacant = some i := by
  refine List.find?_eq_some_iff_getElem.mpr ⟨decide_eq_true hi, i.val, by simp [slotNumbers], ?_,
    fun j hj => ?_⟩
  · simp [slotNumbers]
  · have hj32 : j < 32 := hj.trans i.isLt
    have := h ⟨j, hj32⟩ hj
    simpa [slotNumbers] using this

theorem actOpenAccount_of_status {image : ContractImage} {status : Status} {s : State}
    (h : s.contractCheck image = some status) : actOpenAccount image s = refuse status s := by
  unfold actOpenAccount
  rw [h]

theorem actOpenAccount_duplicate {image : ContractImage} {s : State}
    (h : s.contractCheck image = none) (hl : (s.lookup image.account).isSome = true) :
    actOpenAccount image s = refuse .duplicate s := by
  unfold actOpenAccount
  rw [h]
  exact if_pos hl

theorem actOpenAccount_full {image : ContractImage} {s : State}
    (h : s.contractCheck image = none) (hl : s.lookup image.account = none)
    (hv : s.lowestVacant = none) : actOpenAccount image s = refuse .tableFull s := by
  unfold actOpenAccount
  rw [h, hl, hv]
  exact if_neg Bool.false_ne_true

theorem actOpenAccount_opened {image : ContractImage} {i : Fin 32} {s : State}
    (h : s.contractCheck image = none) (hl : s.lookup image.account = none)
    (hv : s.lowestVacant = some i) :
    actOpenAccount image s = okWith [u8 i.val] (s.openIn i image) := by
  unfold actOpenAccount
  rw [h, hl, hv]
  exact if_neg Bool.false_ne_true

/-- Settles O34: the refusals in their order, and the slot taken. -/
theorem openAccountTakesTheLowestSlot : Obligations.OpenAccountTakesTheLowestSlot := by
  intro image s ha
  have hexec {r : State × Response} (hr : actOpenAccount image s = r) :
      exec (.openAccount image) s = .next (answer r) :=
    exec_of_accepts (act := actOpenAccount image) rfl ha hr
  refine ⟨fun h => hexec (actOpenAccount_of_status (State.contractCheck_fields h)),
    fun h hd => hexec (actOpenAccount_of_status (State.contractCheck_feed h hd)),
    fun h hd hl => hexec (actOpenAccount_of_status (State.contractCheck_schedule h hd hl)),
    fun h hd hl hr => hexec (actOpenAccount_of_status (State.contractCheck_channel h hd hl hr)),
    fun hc => ⟨fun hl => hexec (actOpenAccount_duplicate hc hl), fun hl hv => hexec
      (actOpenAccount_full hc hl (State.lowestVacant_eq_none hv)), fun i hl hi hlow => ?_⟩⟩
  · refine ⟨s.openIn i image, hexec (actOpenAccount_opened hc hl
      (State.lowestVacant_eq_some hi hlow)), State.openIn_slots .., fun e => ?_, fun hd => ?_,
      fun k => State.openIn_channel i image s k, ?_⟩
    · rw [State.openIn_directory, mem_insertEntry]
    · rw [State.openIn_directory]
      exact insertEntry_ascends (State.lookup_none hl) hd
    · simp

/-! ## The reads (R19, R20, R126, R142) -/

/-- A held amendment as READ ACCOUNT shows it. -/
theorem amendment_reported (a : Account) :
    optionalBytes 36 (a.amendment.map amendmentBytes) =
      match a.amendment with
      | none => List.replicate 37 0
      | some ⟨.staged, c⟩ => [1, 1, 0, 0] ++ contractBytes c
      | some ⟨.committed .atBoundary, c⟩ => [1, 2, 1, 0] ++ contractBytes c
      | some ⟨.committed .atClose, c⟩ => [1, 2, 1, 1] ++ contractBytes c := by
  rcases a.amendment with _ | ⟨_ | _ | _, c⟩ <;> rfl

theorem accountBytes_eq (i : Fin 32) (a : Account) : accountBytes i a = accountReported i a := by
  have hcode : optionalBytes 2
      (if a.state = .faulted then some (halfBytes (checkCodeOf a.contract)) else none) =
      if a.state = .faulted then 1 :: halfBytes (crc16 (contractBytes a.contract))
      else [0, 0, 0] := by split <;> rfl
  rw [accountBytes, amendment_reported, hcode, List.append_assoc _ [u8 a.period.val]]
  rfl

/-- A provisional figure as READ PEAKS shows it. -/
theorem provisionalBytes_eq (a : Account) (w : Word) :
    provisionalBytes a w = if a.state = .faulted then List.replicate 5 0 else 1 :: wordBytes w := by
  rw [provisionalBytes]
  split <;> rfl

theorem optionalPeakBytes_eq (p : Option PeakRecord) :
    optionalPeakBytes p =
      match p with
      | none => List.replicate 17 0
      | some p =>
        1 :: (wordBytes p.demand ++ wordBytes p.reactive ++ calTimeBytes p.endTime ++
          [flagByte p.estimated, flagByte p.timeUnsure]) := by
  cases p <;> rfl

theorem oneADay_eq (c : ContractImage) : oneADay c = decide (c.onePerDay ≠ 0) := by
  rw [oneADay, Bool.eq_iff_iff, bne_iff_ne, decide_eq_true_iff]

theorem peaksBytes_eq (a : Account) : peaksBytes a = peaksReported a := by
  have hsplit : provisionalBytes a (provisionalAverage a) ++ provisionalBytes a (provisionalBilling a) =
      if a.state = .faulted then List.replicate 10 0
      else 1 :: wordBytes (provisionalAverage a) ++ 1 :: wordBytes (provisionalBilling a) := by
    rw [provisionalBytes_eq, provisionalBytes_eq]
    split <;> rfl
  rw [peaksBytes, List.append_assoc _ (provisionalBytes _ _), hsplit, oneADay_eq]
  simp only [optionalPeakBytes_eq]
  rfl

theorem actReadRegisters_bad {account : Word} {period : Byte} {i : Fin 32} {s : State}
    (h : settled account i s) (hp : 3 < period.toNat) :
    actReadRegisters account period s = (s, ⟨.badOperand, []⟩) :=
  (accountCommand_of_settled _ h (.inl rfl)).trans (dif_neg (by omega))

/-- Settles O35: the list and the three reads of a settled account. -/
theorem accountReadsChangeNothing : Obligations.AccountReadsChangeNothing := by
  refine ⟨fun start s ha => exec_of_accepts (act := actListAccounts start) rfl ha rfl,
    fun account i s h => ⟨fun ha => ?_, fun period ha => ⟨fun hp => ?_, fun p hp => ?_⟩,
      fun ha => ?_⟩⟩
  · refine exec_of_accepts (act := actReadAccount account) rfl ha ?_
    rw [← accountBytes_eq]
    exact accountCommand_of_settled _ h (.inl rfl)
  · exact exec_of_accepts (act := actReadRegisters account period) rfl ha
      (actReadRegisters_bad h hp)
  · refine exec_of_accepts (act := actReadRegisters account period) rfl ha
      ((accountCommand_of_settled _ h (.inl rfl)).trans ?_)
    have hp4 : period.toNat < 4 := by omega
    obtain rfl : p = ⟨period.toNat, hp4⟩ := Fin.ext hp.symm
    rw [ownReadRegisters, dif_pos hp4]
    rfl
  · refine exec_of_accepts (act := actReadPeaks account) rfl ha ?_
    rw [← peaksBytes_eq]
    exact accountCommand_of_settled _ h (.inl rfl)

end Sys2Proof.Machine

/-!
PROOFS. Close, fetch, amendment, suspension and retirement (R144, R147 to R150, R153 to R160): each
command's own rule on a settled account.
-/

namespace Sys2Proof.Machine

/-! ## CLOSE PERIOD and FETCH CLOSED (R144, R147) -/

theorem ownClosePeriod_eq (i : Fin 32) (s : State) :
    ownClosePeriod i s =
      if s.slots[i].state ≠ .active ∧ s.slots[i].state ≠ .suspended then
        (s, ⟨.wrongState, []⟩)
      else if s.slots[i].snapshot ≠ none then (s, ⟨.snapshotUnread, []⟩)
      else if s.slots[i].closePending = true then (s, ⟨.ok, [1]⟩)
      else
        ({ s with slots := s.slots.set i { s.slots[i] with closePending := true } },
          ⟨.ok, [0]⟩) := by
  rw [ownClosePeriod]
  simp only [Option.isSome_iff_ne_none]
  rfl

theorem Account.countedTerms_of_retired {a : Account} (hs : a.state = .retired)
    (ha : a.amendment = none) : a.countedTerms = [] := by
  rw [Account.countedTerms_eq, Account.amendmentTerms, hs, ha]
  rfl

/-- R18: a slot with no counted terms is given up without a release. -/
theorem State.vacate_uncounted {i : Fin 32} {s : State} (h : s.slots[i].countedTerms = []) :
    s.vacate i =
      { s with
        slots := s.slots.set i Account.cleared,
        directory := s.directory.filter fun e => e.slot != i } := by
  rw [State.vacate, h, State.releaseTerms_nil]
  rfl

section
variable {account : Word} {i : Fin 32} {s : State}

theorem ownFetchClosed_none (h : s.slots[i].snapshot = none) :
    ownFetchClosed account i s = (s, ⟨.noSnapshot, []⟩) := by
  rw [ownFetchClosed, h]
  rfl

theorem ownFetchClosed_kept {p : Snapshot} (h : s.slots[i].snapshot = some p)
    (hr : s.slots[i].state ≠ .retired) :
    ownFetchClosed account i s =
      ({ s with slots := s.slots.set i { s.slots[i] with snapshot := none } },
        ⟨.ok, wordBytes account ++ [u8 i.val] ++ snapshotBytes p ++ [0]⟩) := by
  rw [ownFetchClosed, h]
  exact if_neg hr

theorem ownFetchClosed_vacated {p : Snapshot} (h : s.slots[i].snapshot = some p)
    (hr : s.slots[i].state = .retired) (ha : s.slots[i].amendment = none) :
    ownFetchClosed account i s =
      ({ s with
          slots := s.slots.set i Account.cleared,
          directory := s.directory.filter fun e => e.slot != i },
        ⟨.ok, wordBytes account ++ [u8 i.val] ++ snapshotBytes p ++ [1]⟩) := by
  rw [ownFetchClosed, h, State.vacate_uncounted (Account.countedTerms_of_retired hr ha)]
  exact if_pos hr

end

/-- Settles O36, by the two commands' own rules. -/
theorem closeIsAskedAndSnapshotFetched : Obligations.CloseIsAskedAndSnapshotFetched := by
  intro account i s h hf
  refine ⟨fun ha => exec_of_accepts (act := actClosePeriod account) rfl ha
      ((accountCommand_of_settled _ h (.inr hf)).trans (ownClosePeriod_eq i s)),
    fun ha => ?_⟩
  have hexec {r : State × Response} (hr : ownFetchClosed account i s = r) :
      exec (.fetchClosed account) s = .next (answer r) :=
    exec_of_accepts (act := actFetchClosed account) rfl ha
      ((accountCommand_of_settled _ h (.inr hf)).trans hr)
  exact ⟨fun hn => hexec (ownFetchClosed_none hn), fun p hp hr => hexec (ownFetchClosed_kept hp hr),
    fun p hp hr hm => hexec (ownFetchClosed_vacated hp hr hm)⟩

/-! ## SUSPEND ACCOUNT and RESUME ACCOUNT (R155, R156) -/

theorem ownSuspendAccount_eq (i : Fin 32) (s : State) :
    ownSuspendAccount i s =
      match s.slots[i].state, s.slots[i].suspendPending, s.slots[i].resumePending with
      | .active, false, _ =>
        ({ s with slots := s.slots.set i { s.slots[i] with suspendPending := true } },
          ⟨.ok, [0]⟩)
      | .active, true, _ => (s, ⟨.ok, [1]⟩)
      | .suspended, _, true =>
        ({ s with slots := s.slots.set i { s.slots[i] with resumePending := false } },
          ⟨.ok, [2]⟩)
      | .suspended, _, false => (s, ⟨.ok, [1]⟩)
      | _, _, _ => (s, ⟨.wrongState, []⟩) := by
  rw [ownSuspendAccount]
  generalize s.slots[i] = a
  obtain ⟨state, _, _, _, suspendPending, resumePending⟩ := a
  cases state with
  | active => cases suspendPending <;> rfl
  | suspended => cases resumePending <;> rfl
  | vacant | opening | retiring | retired | faulted => rfl

theorem ownResumeAccount_eq (i : Fin 32) (s : State) :
    ownResumeAccount i s =
      match s.slots[i].state, s.slots[i].suspendPending, s.slots[i].resumePending with
      | .suspended, _, false =>
        ({ s with slots := s.slots.set i { s.slots[i] with resumePending := true } },
          ⟨.ok, [0]⟩)
      | .suspended, _, true => (s, ⟨.ok, [1]⟩)
      | .active, true, _ =>
        ({ s with slots := s.slots.set i { s.slots[i] with suspendPending := false } },
          ⟨.ok, [2]⟩)
      | .active, false, _ => (s, ⟨.ok, [1]⟩)
      | _, _, _ => (s, ⟨.wrongState, []⟩) := by
  rw [ownResumeAccount]
  generalize s.slots[i] = a
  obtain ⟨state, _, _, _, suspendPending, resumePending⟩ := a
  cases state with
  | active => cases suspendPending <;> rfl
  | suspended => cases resumePending <;> rfl
  | vacant | opening | retiring | retired | faulted => rfl

/-- Settles O38, by the tables of the two commands. -/
theorem suspendAndResumeCancelEachOther : Obligations.SuspendAndResumeCancelEachOther := by
  intro account i s h hf
  refine ⟨fun ha => ?_, fun ha => ?_⟩
  · exact exec_of_accepts (act := actSuspendAccount account) rfl ha
      ((accountCommand_of_settled _ h (.inr hf)).trans (ownSuspendAccount_eq i s))
  · exact exec_of_accepts (act := actResumeAccount account) rfl ha
      ((accountCommand_of_settled _ h (.inr hf)).trans (ownResumeAccount_eq i s))

/-! ## Reference counts released and recounted (R97, R154) -/

/-- R97: terms released, where each count covers them. -/
theorem termsReleased_of_counts {terms : List FeedPlace} {s t : State}
    (h : ∀ k : Fin 16, t.channels[k] =
      { s.channels[k] with
        referenceCount := countReleased s.channels[k].referenceCount (termsNaming k terms) }) :
    termsReleased terms s t := fun k hk => by
  rw [h k, countReleased_le (show termsNaming k terms ≤ _ from hk)]
  rfl

/-- R154: the recount is over the terms every slot holds. -/
theorem recounted_eq (s : State) (k : Fin 16) :
    recounted s k =
      if s.channels[k].state = .unregistered then 0 else termsNaming k s.allTerms := by
  have hslot (j : Fin 32) : termsNaming k s.slots[j].countedTerms =
      (if s.slots[j].state.counted = true then naming k s.slots[j].contract.terms else 0) +
        match s.slots[j].amendment with
        | some m => naming k m.contract.terms
        | none => 0 := by
    rw [Account.countedTerms_eq, termsNaming_append, Account.amendmentTerms]
    congr 1
    · split <;> rfl
    · cases s.slots[j].amendment <;> rfl
  rw [recounted, termsNaming_allTerms, Fin.sum_univ_def]
  exact if_congr Iff.rfl rfl (congrArg List.sum (List.map_congr_left fun j _ => (hslot j).symm))

/-- R154: a recounted state shows its own recount. -/
theorem channel_recounted {s t u : State} (hl : t.slots = u.slots)
    (h : ∀ k : Fin 16, t.channels[k] =
      { s.channels[k] with
        referenceCount :=
          if s.channels[k].state = .unregistered then 0 else termsNaming k u.allTerms })
    (k : Fin 16) :
    t.channels[k] = { s.channels[k] with referenceCount := recounted t k } := by
  rw [recounted_eq, State.allTerms_congr hl, h k]

/-! ## RETIRE ACCOUNT (R157, R158, R160) -/

section
variable {i : Fin 32} {s : State}

theorem ownRetireAccount_wrongState
    (h : s.slots[i].state = .retiring ∨ s.slots[i].state = .retired) :
    ownRetireAccount i s = (s, ⟨.wrongState, []⟩) := by
  rw [ownRetireAccount]
  exact if_pos h

theorem ownRetireAccount_unread (h : s.slots[i].state ≠ .retiring)
    (h' : s.slots[i].state ≠ .retired) (hp : s.slots[i].snapshot ≠ none) :
    ownRetireAccount i s = (s, ⟨.snapshotUnread, []⟩) := by
  rw [ownRetireAccount]
  exact (if_neg (not_or.mpr ⟨h, h'⟩)).trans (if_pos (Option.isSome_iff_ne_none.mpr hp))

/-- What RETIRE ACCOUNT does with no snapshot unread, by the state of the account. -/
theorem ownRetireAccount_taken (h : s.slots[i].state ≠ .retiring)
    (h' : s.slots[i].state ≠ .retired) (hp : s.slots[i].snapshot = none) :
    ownRetireAccount i s =
      match s.slots[i].state with
      | .opening => (s.vacate i, ⟨.ok, [0]⟩)
      | .faulted => (s.closeFaulted i, ⟨.ok, [2]⟩)
      | _ => (s.setSlot i (retiringRecord s.slots[i]), ⟨.ok, [1]⟩) := by
  rw [ownRetireAccount, if_neg (not_or.mpr ⟨h, h'⟩), hp, if_neg (by exact Bool.false_ne_true)]
  cases s.slots[i].state <;> rfl

/-- R18, R157: what the slot of an OPENING account gives up. -/
theorem State.vacate_released (h : s.slots[i].state = .opening) :
    termsReleased (s.slots[i].contract.terms ++ amendmentFeed s.slots[i]) s (s.vacate i) := by
  have hterms : s.slots[i].countedTerms =
      s.slots[i].contract.terms ++ amendmentFeed s.slots[i] := by
    rw [Account.countedTerms_eq, h]
    rfl
  rw [← hterms]
  exact termsReleased_of_counts fun k => State.vacate_channel i s k

theorem State.vacate_frame :
    s.vacate i = { s with
      slots := (s.vacate i).slots, directory := (s.vacate i).directory,
      channels := (s.vacate i).channels } := by
  rw [State.vacate, State.releaseTerms, State.mapChannels]
  rfl

end

/-- Settles O39, by the state of the account. -/
theorem retireActsByState : Obligations.RetireActsByState := by
  intro account i s h ha
  have hexec {r : State × Response} (hr : ownRetireAccount i s = r) :
      exec (.retireAccount account) s = .next (answer r) :=
    exec_of_accepts (act := actRetireAccount account) rfl ha
      ((accountCommand_of_settled _ h (.inl rfl)).trans hr)
  refine ⟨fun hs => hexec (ownRetireAccount_wrongState hs), fun h1 h2 =>
    ⟨fun hp => hexec (ownRetireAccount_unread h1 h2 hp), fun hp hs => ?opening, fun hp hs => ?retiring,
      fun hp hs => ?faulted⟩⟩
  case opening =>
    refine ⟨s.vacate i, hexec ?_, State.vacate_slots .., State.vacate_directory ..,
      State.vacate_released hs, State.vacate_frame⟩
    rw [ownRetireAccount_taken h1 h2 hp, hs]
  case retiring =>
    refine hexec ?_
    rw [ownRetireAccount_taken h1 h2 hp]
    rcases hs with hs | hs <;> rw [hs] <;> rfl
  case faulted =>
    have hslot : (s.closeFaulted i).slots[i] = s.slots[i].closedFaulted s.clock.time := by
      rw [State.closeFaulted_slots, getElem_set_slot, if_pos rfl]
      rfl
    dsimp only
    refine ⟨s.closeFaulted i, snapshotOf true true s.clock.time s.slots[i], hexec ?_,
      State.closeFaulted_slots .., by rw [hslot]; rfl, rfl, rfl, rfl, rfl, rfl, rfl, rfl, rfl, rfl,
      by rw [hslot]; rfl, by rw [hslot]; rfl, by rw [hslot]; rfl, by rw [hslot]; rfl,
      by rw [hslot]; rfl, by rw [hslot]; rfl, by rw [hslot]; rfl,
      channel_recounted (State.closeFaulted_slots i s) (State.closeFaulted_channel i s), rfl⟩
    rw [ownRetireAccount_taken h1 h2 hp, hs]

end Sys2Proof.Machine

/-!
PROOFS. Amendments staged, committed and withdrawn, and the repair of a FAULTED account (R136, R148 to
R150, R153, R154); the order an account command passes through (R13, R22, R23, R109).
-/

namespace Sys2Proof.Machine

/-! ## The top list under a new contract (R136) -/

/-- R136 step 1: keeping the first entry of each day, entry by entry. -/
theorem foldl_firstOfEachDay : ∀ (l kept : List TopEntry) (seen : List Date),
    (∀ d, d ∈ seen ↔ ∃ x ∈ kept, x.day = d) →
    l.foldl (fun kept e => if ∃ x ∈ kept, x.day = e.day then kept else kept ++ [e]) kept =
      kept ++ firstOfEachDay seen l
  | [], kept, seen, _ => (List.append_nil kept).symm
  | e :: rest, kept, seen, h => by
    rw [List.foldl_cons, firstOfEachDay]
    by_cases hseen : e.day ∈ seen
    · rw [if_pos ((h e.day).mp hseen), if_pos hseen, foldl_firstOfEachDay rest kept seen h]
    · rw [if_neg fun hx => hseen ((h e.day).mpr hx), if_neg hseen,
        foldl_firstOfEachDay rest (kept ++ [e]) (e.day :: seen), List.append_assoc]
      · rfl
      · intro d
        rw [List.mem_cons, h d]
        simp only [List.mem_append, List.mem_singleton, or_and_right, exists_or, exists_eq_left]
        rw [or_comm, eq_comm]

theorem trimTop_eq (c : ContractImage) (l : List TopEntry) : trimTop c l = topListUnder c l := by
  rw [trimTop, topListUnder, oneADay_eq]
  by_cases h : c.onePerDay = 0
  · simp [h]
  · rw [if_neg h, foldl_firstOfEachDay l [] [] (by simp), decide_eq_true h, if_pos rfl]
    rfl

/-! ## STAGE AMENDMENT (R148) -/

theorem stagingBarred_iff (a : Account) :
    stagingBarred a = true ↔ a.state = .retiring ∨ a.state = .retired ∨
      ∃ m c, a.amendment = some ⟨.committed m, c⟩ := by
  rw [stagingBarred, Bool.or_eq_true, Bool.or_eq_true, beq_iff_eq, beq_iff_eq, or_assoc]
  refine or_congr_right (or_congr_right ?_)
  rcases a.amendment with _ | ⟨_ | m, c⟩ <;> simp

section
variable {image : ContractImage} {i : Fin 32} {s : State}

theorem ownStageAmendment_barred (h : stagingBarred s.slots[i] = true) :
    ownStageAmendment image i s = (s, ⟨.wrongState, []⟩) := by
  unfold ownStageAmendment
  exact if_pos h

theorem ownStageAmendment_refused {status : Status} (h : ¬stagingBarred s.slots[i] = true)
    (hc : s.contractCheck image = some status) :
    ownStageAmendment image i s = (s, ⟨status, []⟩) := by
  unfold ownStageAmendment
  rw [if_neg h, hc]
  rfl

theorem ownStageAmendment_foreign (h : ¬stagingBarred s.slots[i] = true)
    (hc : s.contractCheck image = none) (hd : s.directoryAccount i ≠ some image.account) :
    ownStageAmendment image i s = (s, ⟨.badOperand, []⟩) := by
  unfold ownStageAmendment
  rw [if_neg h, hc]
  exact if_pos hd

theorem ownStageAmendment_stored (h : ¬stagingBarred s.slots[i] = true)
    (hc : s.contractCheck image = none) (hd : s.directoryAccount i = some image.account) :
    ownStageAmendment image i s =
      (s.storeAmendment i image, ⟨.ok, [flagByte s.slots[i].amendment.isSome]⟩) := by
  unfold ownStageAmendment
  rw [if_neg h, hc]
  exact if_neg (not_not.mpr hd)

/-- R97, R148: the first amendment adds its terms. -/
theorem State.storeAmendment_first (h : s.slots[i].amendment = none) (k : Fin 16) :
    (s.storeAmendment i image).channels[k] =
      { s.channels[k] with
        referenceCount := s.channels[k].referenceCount + naming k image.terms } := by
  rw [State.storeAmendment_channel, Account.amendmentTerms, h]
  rfl

/-- R97, R148: a later one adds its terms and releases those of the STAGED one it replaces. -/
theorem State.storeAmendment_replacing {c : ContractImage}
    (h : s.slots[i].amendment = some ⟨.staged, c⟩) {k : Fin 16}
    (hk : naming k c.terms ≤ s.channels[k].referenceCount) :
    (s.storeAmendment i image).channels[k] =
      { s.channels[k] with
        referenceCount := s.channels[k].referenceCount - naming k c.terms +
          naming k image.terms } := by
  rw [State.storeAmendment_channel, Account.amendmentTerms_of_some h,
    countReleased_le (show termsNaming k c.terms ≤ _ from hk)]
  rfl

/-! ## COMMIT AMENDMENT and WITHDRAW AMENDMENT (R149, R150, R153) -/

theorem modeOf_of_gt {b : Byte} (h : 1 < b.toNat) : modeOf b = none := by
  have h0 : b ≠ 0 := by rintro rfl; exact absurd h (by decide)
  have h1 : b ≠ 1 := by rintro rfl; exact absurd h (by decide)
  rw [modeOf, if_neg h0, if_neg h1]

theorem ownCommitAmendment_badMode {mode : Byte} (h : 1 < mode.toNat) :
    ownCommitAmendment mode i s = (s, ⟨.badOperand, []⟩) := by
  rw [ownCommitAmendment, modeOf_of_gt h]
  rfl

variable {mode : Byte} {m : EffectMode} (hm : modeOf mode = some m)
include hm

theorem ownCommitAmendment_wrongState
    (h : s.slots[i].state = .retiring ∨ s.slots[i].state = .retired) :
    ownCommitAmendment mode i s = (s, ⟨.wrongState, []⟩) := by
  rw [ownCommitAmendment, hm]
  exact if_pos h

variable (h : s.slots[i].state ≠ .retiring) (h' : s.slots[i].state ≠ .retired)
include h h'

theorem ownCommitAmendment_nothing (hc : stagedContract s.slots[i] = none) :
    ownCommitAmendment mode i s = (s, ⟨.nothingStaged, []⟩) := by
  rw [ownCommitAmendment, hm]
  refine (if_neg (not_or.mpr ⟨h, h'⟩)).trans ?_
  rw [hc]
  rfl

theorem ownCommitAmendment_committed {c : ContractImage}
    (hc : s.slots[i].amendment = some ⟨.staged, c⟩) (hf : s.slots[i].state ≠ .faulted) :
    ownCommitAmendment mode i s =
      ({ s with slots := s.slots.set i { s.slots[i] with amendment := some ⟨.committed m, c⟩ } },
        ⟨.ok, []⟩) := by
  rw [ownCommitAmendment, hm]
  refine (if_neg (not_or.mpr ⟨h, h'⟩)).trans ?_
  rw [stagedContract_eq_some.mpr hc]
  exact if_neg hf

theorem ownCommitAmendment_repaired {c : ContractImage}
    (hc : s.slots[i].amendment = some ⟨.staged, c⟩) (hf : s.slots[i].state = .faulted) :
    ownCommitAmendment mode i s = (s.repair i c, ⟨.ok, []⟩) := by
  rw [ownCommitAmendment, hm]
  refine (if_neg (not_or.mpr ⟨h, h'⟩)).trans ?_
  rw [stagedContract_eq_some.mpr hc]
  exact if_pos hf

end

/-- R153: the record a repair leaves in its slot. -/
theorem State.repair_slots (i : Fin 32) (c : ContractImage) (s : State) :
    (s.repair i c).slots = s.slots.set i
      { s.slots[i] with
        contract := c, checkCode := crc16 (contractBytes c), window := [],
        topList := topListUnder c s.slots[i].topList, amendment := none,
        period := s.lookupPeriod c.schedule s.sweep.time,
        lastBoundary := s.sweep.b, state := .active } := by
  rw [State.repair_eq, State.latch_slots, State.recount_slots, State.setSlot_slots, State.repaired,
    ← trimTop_eq]
  rfl

theorem ownWithdrawAmendment_none {i : Fin 32} {s : State} (h : s.slots[i].amendment = none) :
    ownWithdrawAmendment i s = (s, ⟨.nothingStaged, []⟩) := by
  rw [ownWithdrawAmendment, h]
  rfl

theorem ownWithdrawAmendment_some {i : Fin 32} {m : Amendment} {s : State}
    (h : s.slots[i].amendment = some m) :
    ownWithdrawAmendment i s =
      ((s.releaseTerms m.contract.terms).setSlot i { s.slots[i] with amendment := none },
        ⟨.ok, [m.status.code]⟩) := by
  rw [ownWithdrawAmendment, h]
  rfl

/-- Settles O37, command by command. -/
theorem amendmentsAreStagedCommittedWithdrawn :
    Obligations.AmendmentsAreStagedCommittedWithdrawn := by
  intro account i s h
  refine ⟨fun image ha => ?stage, fun mode ha => ?commit, fun ha => ?withdraw⟩
  case stage =>
    have hexec {r : State × Response} (hr : ownStageAmendment image i s = r) :
        exec (.stageAmendment account image) s = .next (answer r) :=
      exec_of_accepts (act := actStageAmendment account image) rfl ha
        ((accountCommand_of_settled _ h (.inl rfl)).trans hr)
    dsimp only
    rw [← stagingBarred_iff]
    refine ⟨fun hb => hexec (ownStageAmendment_barred hb), fun hb =>
      ⟨fun hf => hexec (ownStageAmendment_refused hb (State.contractCheck_fields hf)),
        fun hf hd => hexec (ownStageAmendment_refused hb (State.contractCheck_feed hf hd)),
        fun hf hd hl => hexec (ownStageAmendment_refused hb (State.contractCheck_schedule hf hd hl)),
        fun hf hd hl hr =>
          hexec (ownStageAmendment_refused hb (State.contractCheck_channel hf hd hl hr)),
        fun hc hd => hexec (ownStageAmendment_foreign hb hc hd),
        fun hc hd => ⟨s.storeAmendment i image, hexec (ownStageAmendment_stored hb hc hd),
          State.storeAmendment_slots .., State.storeAmendment_directory ..,
          State.storeAmendment_sweep .., State.storeAmendment_attention ..,
          State.storeAmendment_first, fun c hs k => State.storeAmendment_replacing hs⟩⟩⟩
  case commit =>
    have hexec {r : State × Response} (hr : ownCommitAmendment mode i s = r) :
        exec (.commitAmendment account mode) s = .next (answer r) :=
      exec_of_accepts (act := actCommitAmendment account mode) rfl ha
        ((accountCommand_of_settled _ h (.inl rfl)).trans hr)
    refine ⟨fun hb => hexec (ownCommitAmendment_badMode hb), fun m hm =>
      ⟨fun hw => hexec (ownCommitAmendment_wrongState hm hw), fun h1 h2 =>
        ⟨fun hn => hexec (ownCommitAmendment_nothing hm h1 h2 hn),
          fun c hc hf => hexec (ownCommitAmendment_committed hm h1 h2 hc hf),
          fun c hc hf => ⟨s.repair i c, hexec (ownCommitAmendment_repaired hm h1 h2 hc hf),
            State.repair_slots i c s, channel_recounted (u := s.setSlot i (s.repaired i c)) rfl
              (State.repair_channel i c s), (State.mem_latch ..).mpr (.inl rfl),
            State.repair_directory .., State.repair_sweep ..⟩⟩⟩⟩
  case withdraw =>
    have hexec {r : State × Response} (hr : ownWithdrawAmendment i s = r) :
        exec (.withdrawAmendment account) s = .next (answer r) :=
      exec_of_accepts (act := actWithdrawAmendment account) rfl ha
        ((accountCommand_of_settled _ h (.inl rfl)).trans hr)
    refine ⟨fun hn => hexec (ownWithdrawAmendment_none hn), fun m hm => ?_⟩
    have hreleased : termsReleased m.contract.terms s
        ((s.releaseTerms m.contract.terms).setSlot i { s.slots[i] with amendment := none }) :=
      termsReleased_of_counts fun k => by
        rw [State.setSlot_channels]
        exact State.releaseTerms_channel _ s k
    exact ⟨_, hexec (ownWithdrawAmendment_some hm),
      by rw [State.setSlot_slots, State.releaseTerms_slots],
      by rw [State.setSlot_directory, State.releaseTerms_directory],
      by rw [State.setSlot_attention, State.releaseTerms_attention],
      by rw [State.setSlot_sweep, State.releaseTerms_sweep], hreleased⟩

/-! ## The order of an account command (R13, R22, R23, R109) -/

section
variable {account : Word} {period mode : Byte} {image : ContractImage} {i : Fin 32} {s t : State}

/-- Each command of the list passes through `accountCommand` with an own rule of its own. -/
theorem exec_accountCommands {x : Instr × Bool}
    (hx : x ∈ accountCommands account period mode image) :
    ∃ own, ∀ u : State, exec x.1 u = .next (u.request x.1 (accountCommand account x.2 own)) := by
  simp only [accountCommands, List.mem_cons, List.not_mem_nil, or_false] at hx
  rcases hx with rfl | rfl | rfl | rfl | rfl | rfl | rfl | rfl | rfl | rfl | rfl <;>
    exact ⟨_, fun _ => rfl⟩

theorem accountCommand_noAccount {permitted : Bool} {own : Fin 32 → State → State × Response}
    (h : s.lookup account = none) :
    accountCommand account permitted own s = (s, ⟨.noAccount, []⟩) := by
  rw [accountCommand, h]
  rfl

/-- R23: a command not permitted on a FAULTED account is refused. -/
theorem accountCommand_refused {own : Fin 32 → State → State × Response}
    (h : s.lookup account = some i) (hb : s.bring i = t) (hf : t.slots[i].state = .faulted) :
    accountCommand account false own s = (t, ⟨.recordFault, []⟩) := by
  rw [accountCommand, h]
  dsimp only
  rw [hb, if_pos ⟨hf, rfl⟩]
  rfl

theorem accountCommand_permitted {own : Fin 32 → State → State × Response}
    (h : s.lookup account = some i) : accountCommand account true own s = own i (s.bring i) := by
  rw [accountCommand, h]
  exact if_neg fun hp => Bool.noConfusion hp.2

/-- R13, R109: what stages 2 and 3 leave stands: the command then runs as it would on that state. -/
theorem accountCommand_bring {permitted : Bool} {own : Fin 32 → State → State × Response}
    (h : s.lookup account = some i) (hb : s.bring i = t) (ht : settled account i t) :
    accountCommand account permitted own s = accountCommand account permitted own t := by
  rw [accountCommand, accountCommand, h, ht.1]
  dsimp only
  rw [hb, State.bring_of_settled ht]

theorem State.lookup_congr (h : t.directory = s.directory) :
    t.lookup account = s.lookup account := by
  rw [State.lookup, State.lookup, h]

theorem State.accepts_congr (c : Instr) (hawake : t.awake = s.awake) (hport : t.port = s.port) :
    t.accepts c = s.accepts c := by
  rw [State.accepts, State.accepts, hawake, hport]

/-- A command takes the state stages 2 and 3 leave as its own. -/
theorem exec_bring {x : Instr × Bool} (hx : x ∈ accountCommands account period mode image)
    (ha : s.accepts x.1 = true) (h : s.lookup account = some i) (hb : s.bring i = t)
    (ht : settled account i t) (hawake : t.awake = s.awake) (hport : t.port = s.port) :
    exec x.1 s = exec x.1 t := by
  obtain ⟨own, hexec⟩ := exec_accountCommands hx
  have ha' : t.accepts x.1 = true := (State.accepts_congr _ hawake hport).trans ha
  rw [hexec, hexec, State.request_of_accepts ha, State.request_of_accepts ha',
    accountCommand_bring h hb ht]

theorem exec_refused {x : Instr × Bool} (hx : x ∈ accountCommands account period mode image)
    (ha : s.accepts x.1 = true) (h : s.lookup account = some i) (hb : s.bring i = t)
    (hf : t.slots[i].state = .faulted) (hp : x.2 = false) :
    exec x.1 s = .next (answer (t, ⟨.recordFault, []⟩)) := by
  obtain ⟨own, hexec⟩ := exec_accountCommands hx
  rw [hp] at hexec
  exact exec_of_accepts (hexec s) ha (accountCommand_refused h hb hf)

theorem State.bring_of_oneBehind (h : s.oneBehind i = true) : s.bring i = s.boundaryStep i :=
  if_pos h

theorem State.not_oneBehind_of_faulted (h : s.slots[i].state = .faulted) :
    s.oneBehind i = false := by
  rw [State.oneBehind, h]
  simp [AccountState.swept]

theorem State.bring_of_faulted (h : s.slots[i].state = .faulted) : s.bring i = s := by
  rw [State.bring, State.not_oneBehind_of_faulted h, h]
  rfl

/-- R22: a swept account whose verification fails is made FAULTED, pulled forward or not. -/
theorem State.bring_of_not_verified (hs : s.slots[i].state.swept = true)
    (hv : s.verified i = false) : s.bring i = s.enterFaulted i := by
  rw [State.bring, State.boundaryStep_of_not_verified hv, hs, hv]
  exact ite_self _

theorem faultEntered_eq : faultEntered i s = s.enterFaulted i := rfl

theorem State.enterFaulted_state : (s.enterFaulted i).slots[i].state = .faulted := by
  rw [State.enterFaulted_slots]
  simp [faultedRecord]

theorem settled_enterFaulted (h : s.lookup account = some i) :
    settled account i (s.enterFaulted i) := by
  refine ⟨(State.lookup_congr (State.enterFaulted_directory i s)).trans h,
    State.not_oneBehind_of_faulted State.enterFaulted_state, fun hs => ?_⟩
  rw [State.enterFaulted_state] at hs
  cases hs

end

/-- Settles O40, from the one order the commands share and the two reads' own rules. -/
theorem accountCommandsPassThroughTheOrder : Obligations.AccountCommandsPassThroughTheOrder := by
  intro account period mode image s
  refine ⟨fun x hx ha => ⟨fun h => ?absent, fun i h => ⟨fun hbehind hsettled => ?behind,
    fun hs hv => ⟨settled_enterFaulted h, ?failed, fun hp => ?refused⟩, fun hp hf => ?faulted⟩⟩,
    fun i h hbehind => ⟨fun ha => ?account, fun ha => ?peaks⟩⟩
  case absent =>
    obtain ⟨own, hexec⟩ := exec_accountCommands hx
    exact exec_of_accepts (hexec s) ha (accountCommand_noAccount h)
  case behind =>
    exact exec_bring hx ha h (State.bring_of_oneBehind hbehind) hsettled
      (State.boundaryStep_awake i s) (State.boundaryStep_port i s)
  case failed =>
    exact exec_bring hx ha h (State.bring_of_not_verified hs hv) (settled_enterFaulted h) rfl rfl
  case refused =>
    exact exec_refused hx ha h (State.bring_of_not_verified hs hv) State.enterFaulted_state hp
  case faulted => exact exec_refused hx ha h (State.bring_of_faulted hf) hf hp
  case account =>
    refine exec_of_accepts (act := actReadAccount account) rfl ha ?_
    rw [actReadAccount, accountCommand_permitted h, State.bring_of_oneBehind hbehind,
      ← accountBytes_eq]
    rfl
  case peaks =>
    refine exec_of_accepts (act := actReadPeaks account) rfl ha ?_
    rw [actReadPeaks, accountCommand_permitted h, State.bring_of_oneBehind hbehind,
      ← peaksBytes_eq]
    rfl

end Sys2Proof.Machine

/-!
PROOFS. The boundary sweep: the visit that raises the next slot (R107, R108) and the boundary step of
one account (R21, R22, R111 to R113, R120 to R124, R151, R152, R159).
-/

namespace Sys2Proof.Machine

/-! ## The visit (R107, R108) -/

section
variable {i : Fin 32} {s : State}

theorem execSweepVisit_running (hawake : s.awake = true) (hrun : s.sweep.running = true)
    (hnext : s.sweep.nextSlot = i.val) :
    exec .sweepVisit s = .next ((s.visitSlot i).afterVisit i) := by
  have hlt : s.sweep.nextSlot < 32 := hnext ▸ i.isLt
  have hslot : (⟨s.sweep.nextSlot, hlt⟩ : Fin 32) = i := Fin.ext hnext
  have hvisit : s.visitNext = (s.visitSlot i).afterVisit i := by
    rw [State.visitNext, dif_pos hlt, hslot]
  show execSweepVisit s = _
  rw [execSweepVisit, hawake, hrun, ← hvisit]
  rfl

theorem State.visitSlot_eq : s.visitSlot i =
    if s.slots[i].state.swept = true ∧ s.slots[i].lastBoundary ≠ s.sweep.b then s.boundaryStep i
    else s := by
  simp only [State.visitSlot, Bool.and_eq_true, decide_eq_true_eq]

@[simp] theorem State.visitSlot_sweep_queue :
    (s.visitSlot i).sweep = s.sweep ∧ (s.visitSlot i).queue = s.queue := by
  rw [State.visitSlot]
  split <;> simp

theorem State.afterVisit_before_last (h : i.val < 31) (t : State) :
    t.afterVisit i = { t with sweep := { t.sweep with nextSlot := i.val + 1 } } :=
  if_neg (by omega)

theorem State.finishSweep_no_marker (h : s.sweep.heldMarker = false) : s.finishSweep =
    { s with sweep := { s.sweep with running := false, nextSlot := 32, heldMarker := false } } := by
  rw [State.finishSweep, h]
  rfl

theorem State.finishSweep_held {q : QueuedMarker} (h : s.sweep.heldMarker = true)
    (hq : s.queue.marker = some q) : s.finishSweep =
      State.startSweep q.marker
        { s with sweep := { s.sweep with
          running := false, nextSlot := 32, heldMarker := false } } := by
  rw [State.finishSweep, h, hq]
  rfl

end

/-- Settles O41, by the slot visited and whether a marker is held. -/
theorem sweepVisitsTheNextSlot : Obligations.SweepVisitsTheNextSlot := by
  intro i s hawake hrun hnext
  have hexec := execSweepVisit_running hawake hrun hnext
  obtain ⟨hsweep, hqueue⟩ := State.visitSlot_sweep_queue (i := i) (s := s)
  intro t
  have ht : s.visitSlot i = t := State.visitSlot_eq
  rw [ht] at hexec hsweep hqueue
  rw [hexec, ← hsweep]
  have hlast (h : i.val = 31) : t.afterVisit i = t.finishSweep := if_pos h
  refine ⟨fun h => ?_, fun h hm => ?_, fun q h hm hq => ?_⟩
  · rw [State.afterVisit_before_last h]
  · rw [hlast h, State.finishSweep_no_marker hm]
  · exact ⟨_, (congrArg Host.Outcome.next
      ((hlast h).trans (State.finishSweep_held hm (hqueue ▸ hq)))),
      State.startSweep_markerTaken _ _⟩

/-! ## The stages of a step (R120 to R124, R152, R159) -/

/-- R121: the record after stage 5 of an account that is not RETIRING. -/
def closedIfPending (time : CalTime) (h : Account) : Account :=
  if h.closePending = true then closed false false time h else h

section
variable {i : Fin 32} {s : State} {time : CalTime} {h : Account}

theorem closedIfPending_frame : (closedIfPending time h).contract = h.contract ∧
    (closedIfPending time h).amendment = h.amendment ∧
    (closedIfPending time h).window = h.window ∧ (closedIfPending time h).state = h.state := by
  rw [closedIfPending]
  split
  · exact ⟨rfl, rfl, rfl, rfl⟩
  · exact ⟨rfl, rfl, rfl, rfl⟩

theorem dueAmendment_closed (b : Bool) (time : CalTime) (h : Account) :
    dueAmendment b (closedIfPending time h) = dueAmendment b h := by
  rw [dueAmendment, dueAmendment, closedIfPending_frame.2.1]

/-- R121, R122: stages 5 and 6 of an account that is not RETIRING. -/
theorem closeAndAmend_of_not_retiring (hr : h.state ≠ .retiring) : closeAndAmend time h =
    { amendStage h.closePending (closedIfPending time h) with
      latched := (if h.closePending = true then [.closeDone] else []) ++
        (amendStage h.closePending (closedIfPending time h)).latched } := by
  rw [closeAndAmend, if_neg hr, closedIfPending]
  cases h.closePending <;> rfl

theorem amendStage_due {b : Bool} {d : ContractImage} (hd : dueAmendment b h = some d) :
    amendStage b h = ⟨applied d h, [.amendmentApplied], h.contract.terms⟩ := by
  rw [amendStage, hd]

theorem amendStage_not_due {b : Bool} (hd : dueAmendment b h = none) :
    amendStage b h = ⟨h, [], []⟩ := by
  rw [amendStage, hd]

theorem dueAmendment_of_due {b : Bool} {d : ContractImage}
    (hd : h.amendment = some ⟨.committed .atBoundary, d⟩ ∨
      (h.amendment = some ⟨.committed .atClose, d⟩ ∧ b = true)) :
    dueAmendment b h = some d := by
  rcases hd with hd | ⟨hd, rfl⟩
  · rw [dueAmendment, hd]
  · rw [dueAmendment, hd]
    rfl

theorem dueAmendment_of_not_due {b : Bool}
    (hboundary : ∀ d, h.amendment ≠ some ⟨.committed .atBoundary, d⟩)
    (hclose : ∀ d, h.amendment = some ⟨.committed .atClose, d⟩ → b = false) :
    dueAmendment b h = none := by
  rw [dueAmendment]
  split
  · next c hc => exact absurd hc (hboundary c)
  · next c hc => exact if_neg (by rw [hclose c hc]; exact Bool.false_ne_true)
  · rfl
  · rfl

theorem keepsWindow_iff (old new : ContractImage) : keepsWindow old new = true ↔
    new.windowLength = old.windowLength ∧ (∀ u ∈ new.terms, u ∈ old.terms) ∧
      ∀ u ∈ old.terms, u ∈ new.terms := by
  simp only [keepsWindow, sameFeeds, Bool.and_eq_true, decide_eq_true_eq, List.all_eq_true]
  exact and_congr eq_comm and_comm

theorem amendmentFeed_eq (a : Account) : a.amendmentTerms = amendmentFeed a := rfl

theorem State.nextPeriod_of_not_retired {a : Account} (hr : a.state ≠ .retired) :
    s.recordBoundary (s.nextPeriod a) = { a with
      period := s.lookupPeriod a.contract.schedule s.sweep.time, lastBoundary := s.sweep.b } := by
  rw [State.recordBoundary, State.nextPeriod, if_neg hr]

theorem State.accountStep_opening {a : Account} (ho : a.state = .opening) :
    s.accountStep a = ⟨{ a with
      state := .active, window := [], lastBoundary := s.sweep.b,
      period := s.lookupPeriod a.contract.schedule s.sweep.time }, [], []⟩ := by
  rw [State.accountStep, if_pos ho, State.nextPeriod_of_not_retired (by exact nofun)]

theorem State.foldStage_eq {a : Account}
    (hs : a.state = .active ∨ a.state = .suspended ∨ a.state = .retiring) :
    (s.foldStage a).1 = afterStageThree s a := by
  rw [State.foldStage, afterStageThree]
  rcases hs with hs | hs | hs <;> rw [hs] <;> rfl

/-- R111: the record of a stepped account, from what stages 5 and 6 make of the record after
stages 3 and 4. -/
theorem State.accountStep_of_stages {a : Account}
    (hs : a.state = .active ∨ a.state = .suspended ∨ a.state = .retiring) :
    s.accountStep a =
      let out := closeAndAmend s.sweep.time (afterStageFour (afterStageThree s a))
      ⟨s.recordBoundary (s.nextPeriod out.account), (s.foldStage a).2 ++ out.latched,
        out.released⟩ := by
  rw [← State.foldStage_eq hs, State.accountStep, if_neg]
  · rfl
  · rcases hs with hs | hs | hs <;> rw [hs] <;> exact nofun

theorem afterStageThree_state (a : Account) : (afterStageThree s a).state = a.state := by
  rw [afterStageThree]
  split
  · rfl
  · rw [State.fold_frame]

theorem afterStageFour_not_retired (hs : h.state ≠ .retired) :
    (afterStageFour h).state ≠ .retired := by
  rw [afterStageFour]
  split
  · exact nofun
  · split
    · exact nofun
    · exact hs

theorem State.boundaryStep_own (hv : s.verified i = true) :
    (s.boundaryStep i).slots[i] = (s.accountStep s.slots[i]).account := by
  rw [State.boundaryStep_slot, if_pos rfl, State.stepped, if_pos hv]

theorem State.boundaryStep_slots_verified (hv : s.verified i = true) :
    (s.boundaryStep i).slots = s.slots.set i (s.accountStep s.slots[i]).account := by
  rw [State.boundaryStep_slots, State.stepped, if_pos hv]

theorem State.mem_boundaryStep_latched {k : AttnKind} (hv : s.verified i = true)
    (hk : k ∈ (s.accountStep s.slots[i]).latched) :
    ⟨k, i.val⟩ ∈ (s.boundaryStep i).attention.pendingSet := by
  rw [State.boundaryStep_of_verified hv, State.mem_latchAll]
  exact .inl ⟨hk, rfl⟩

theorem State.boundaryStep_released (hv : s.verified i = true) :
    termsReleased (s.accountStep s.slots[i]).released s (s.boundaryStep i) :=
  termsReleased_of_counts fun k => State.boundaryStep_channel_of_verified hv k

theorem State.boundaryStep_channels_kept (hv : s.verified i = true)
    (hr : (s.accountStep s.slots[i]).released = []) :
    (s.boundaryStep i).channels = s.channels := by
  rw [State.boundaryStep_of_verified hv, hr, State.releaseTerms_nil, State.latchAll_channels,
    State.setSlot_channels]

end

/-! ## What a step touches (R111) -/

section
variable (i : Fin 32) (s : State)

theorem State.boundaryStep_faulted (hv : s.verified i = false) :
    s.boundaryStep i = State.latch .recordFault i { s with
      slots := s.slots.set i { s.slots[i] with
        state := .faulted, closePending := false, suspendPending := false,
        resumePending := false } } :=
  State.boundaryStep_of_not_verified hv

theorem State.boundaryStep_opening (hv : s.verified i = true) (ho : s.slots[i].state = .opening) :
    (s.boundaryStep i).slots = s.slots.set i { s.slots[i] with
      state := .active, window := [], lastBoundary := s.sweep.b,
      period := s.lookupPeriod s.slots[i].contract.schedule s.sweep.time } := by
  rw [State.boundaryStep_slots_verified hv, State.accountStep_opening ho]

/-- R112, R114: a SUSPENDED account with nothing pending keeps its record but for the period and the
boundary applied. -/
theorem State.boundaryStep_suspended (hv : s.verified i = true)
    (hs : s.slots[i].state = .suspended) (hr : s.slots[i].resumePending = false)
    (hc : s.slots[i].closePending = false) (ha : s.slots[i].amendment = none) :
    (s.boundaryStep i).slots = s.slots.set i { s.slots[i] with
      lastBoundary := s.sweep.b,
      period := s.lookupPeriod s.slots[i].contract.schedule s.sweep.time } := by
  rw [State.boundaryStep_slots_verified hv]
  generalize s.slots[i] = a at *
  have hthree : afterStageThree s a = a := if_pos hs
  have hfour : afterStageFour a = a := by
    rw [afterStageFour, hs, hr]
    rfl
  have hnot : a.state ≠ .retiring := by rw [hs]; exact nofun
  have hclosed : closedIfPending s.sweep.time a = a :=
    if_neg (by rw [hc]; exact Bool.false_ne_true)
  have hnone : dueAmendment a.closePending a = none := by rw [dueAmendment, ha]
  rw [State.accountStep_of_stages (.inr (.inl hs)), hthree, hfour,
    closeAndAmend_of_not_retiring hnot, hclosed, amendStage_not_due hnone]
  dsimp only
  rw [State.nextPeriod_of_not_retired (by rw [hs]; exact nofun)]

theorem State.boundaryStep_channel_counts (k : Fin 16) :
    { (s.boundaryStep i).channels[k] with referenceCount := 0 } =
      { s.channels[k] with referenceCount := 0 } := by
  rw [State.boundaryStep_channel]

end

/-! ## A step of an account in service -/

section
variable {i : Fin 32} {s : State} {h : Account}
variable (hv : s.verified i = true)
variable (hs : s.slots[i].state = .active ∨ s.slots[i].state = .suspended ∨
  s.slots[i].state = .retiring)
variable (hh : afterStageFour (afterStageThree s s.slots[i]) = h)

include hs hh in
theorem State.accountStep_retiring (hr : h.state = .retiring) :
    s.accountStep s.slots[i] = ⟨{ closed false true s.sweep.time h with
      amendment := none, state := .retired, lastBoundary := s.sweep.b },
      (s.foldStage s.slots[i]).2 ++ [.closeDone], h.contract.terms ++ amendmentFeed h⟩ := by
  rw [State.accountStep_of_stages hs, hh, closeAndAmend, if_pos hr, ← amendmentFeed_eq]
  rfl

include hs hh in
theorem afterStageFour_in_service : h.state ≠ .retired := by
  rw [← hh]
  refine afterStageFour_not_retired ?_
  rw [afterStageThree_state]
  rcases hs with hs | hs | hs <;> rw [hs] <;> exact nofun

include hs hh in
/-- R122, R152: the step of an account whose amendment is due. -/
theorem State.accountStep_due {d : ContractImage} (hr : h.state ≠ .retiring)
    (hd : dueAmendment h.closePending h = some d) :
    s.accountStep s.slots[i] = ⟨{ closedIfPending s.sweep.time h with
      contract := d, checkCode := crc16 (contractBytes d),
      window := if keepsWindow h.contract d then h.window else [],
      topList := topListUnder d (closedIfPending s.sweep.time h).topList, amendment := none,
      period := s.lookupPeriod d.schedule s.sweep.time, lastBoundary := s.sweep.b },
      (s.foldStage s.slots[i]).2 ++ ((if h.closePending = true then [.closeDone] else []) ++
        [.amendmentApplied]), h.contract.terms⟩ := by
  obtain ⟨hcontract, -, hwindow, hstate⟩ :=
    closedIfPending_frame (time := s.sweep.time) (h := h)
  rw [← dueAmendment_closed _ s.sweep.time] at hd
  have hkept : (applied d (closedIfPending s.sweep.time h)).state ≠ .retired := by
    show (closedIfPending s.sweep.time h).state ≠ .retired
    rw [hstate]
    exact afterStageFour_in_service hs hh
  rw [State.accountStep_of_stages hs, hh, closeAndAmend_of_not_retiring hr, amendStage_due hd]
  dsimp only
  rw [State.nextPeriod_of_not_retired hkept, applied, hcontract, hwindow, trimTop_eq]
  rfl

include hs hh in
/-- R121, R123, R124: the step of an account with no amendment due. -/
theorem State.accountStep_not_due (hr : h.state ≠ .retiring)
    (hd : dueAmendment h.closePending h = none) :
    s.accountStep s.slots[i] = ⟨{ closedIfPending s.sweep.time h with
      period := s.lookupPeriod h.contract.schedule s.sweep.time, lastBoundary := s.sweep.b },
      (s.foldStage s.slots[i]).2 ++ ((if h.closePending = true then [.closeDone] else []) ++ []),
      []⟩ := by
  obtain ⟨hcontract, -, -, hstate⟩ := closedIfPending_frame (time := s.sweep.time) (h := h)
  rw [← dueAmendment_closed _ s.sweep.time] at hd
  have hkept : (closedIfPending s.sweep.time h).state ≠ .retired := by
    rw [hstate]
    exact afterStageFour_in_service hs hh
  rw [State.accountStep_of_stages hs, hh, closeAndAmend_of_not_retiring hr, amendStage_not_due hd]
  dsimp only
  rw [State.nextPeriod_of_not_retired hkept, hcontract]

include hs hh in
/-- R121: CLOSE_DONE is latched with the close. -/
theorem State.closeDone_mem_accountStep (hr : h.state ≠ .retiring) (hc : h.closePending = true) :
    .closeDone ∈ (s.accountStep s.slots[i]).latched := by
  rw [State.accountStep_of_stages hs, hh, closeAndAmend_of_not_retiring hr, if_pos hc]
  exact List.mem_append_right _ (List.mem_cons_self ..)

end

/-- Settles O42: the frame of a step, and its stages in the order they run. -/
theorem boundaryStepKeepsToItsAccount : Obligations.BoundaryStepKeepsToItsAccount := by
  refine ⟨fun i s => ⟨State.boundaryStep_faulted i s, State.boundaryStep_opening i s,
    State.boundaryStep_suspended i s, fun j hj => ?others, State.boundaryStep_device i s,
    State.boundaryStep_clock i s, State.boundaryStep_tariff i s, State.boundaryStep_links i s,
    State.boundaryStep_holdTime i s, State.boundaryStep_queue i s, State.boundaryStep_sweep i s,
    State.boundaryStep_directory i s, State.boundaryStep_port i s, State.boundaryStep_pending i s,
    State.boundaryStep_mask i s, State.boundaryStep_channel_counts i s,
    fun p hp => State.mem_boundaryStep_of_mem i s hp, fun p hp => State.mem_boundaryStep i s hp⟩,
    fun i s hv hs => ?stages⟩
  case others => rw [State.boundaryStep_slot, if_neg hj]
  case stages =>
    intro g h c t
    have hh : afterStageFour (afterStageThree s s.slots[i]) = h := rfl
    clear_value h
    refine ⟨fun hn k hk => ?folded, fun hr => ?retired, fun hr hc => ?closes,
      fun hr d hd => ?due, fun hr hb hc => ?kept⟩
    case folded => exact State.mem_boundaryStep_of_fold i s hv (by tauto) hk
    case retired =>
      have hstep := State.accountStep_retiring hs hh hr
      refine ⟨(State.boundaryStep_own hv).trans (by rw [hstep]),
        State.mem_boundaryStep_latched hv (by rw [hstep]; simp), ?_⟩
      have hreleased := State.boundaryStep_released hv
      rwa [hstep] at hreleased
    case closes =>
      exact State.mem_boundaryStep_latched hv (State.closeDone_mem_accountStep hs hh hr hc)
    case due =>
      have hstep := State.accountStep_due hs hh hr (dueAmendment_of_due hd)
      refine ⟨(State.boundaryStep_own hv).trans ?_,
        State.mem_boundaryStep_latched hv (by rw [hstep]; simp), ?_⟩
      · rw [hstep]
        simp only [keepsWindow_iff]
        rfl
      · have hreleased := State.boundaryStep_released hv
        rwa [hstep] at hreleased
    case kept =>
      have hstep := State.accountStep_not_due hs hh hr (dueAmendment_of_not_due hb hc)
      exact ⟨(State.boundaryStep_own hv).trans (by rw [hstep]; rfl),
        State.boundaryStep_channels_kept hv (by rw [hstep])⟩

end Sys2Proof.Machine

/-!
PROOFS. The fold of a subinterval (R6, R114 to R119): the held nets, the saturating registers, and what
the fold makes of the record in each of its three courses.
-/

namespace Sys2Proof.Machine

/-! ## Held nets (R114) -/

theorem holdSigned_eq (n : Int) : holdSigned n = max (-(2 ^ 47)) (min (2 ^ 47 - 1) n) := by
  rw [holdSigned]
  split
  · omega
  · split <;> omega

theorem weight_eq {sign : Byte} (h : sign = 1 ∨ sign = 2) :
    weight sign = if sign = 1 then 1 else -1 := by
  rcases h with rfl | rfl <;> rfl

/-- The terms of a feed list that name a channel and carry a sign of R97. -/
def feedsSound (terms : List FeedPlace) : Prop :=
  ∀ u ∈ terms, u.channel.toNat < 16 ∧ (u.sign = 1 ∨ u.sign = 2)

theorem netOf_eq {terms : List FeedPlace} (ht : feedsSound terms) {part : Byte → Quantity}
    {sealedPart : Fin 16 → Quantity}
    (h : ∀ k : Byte, k.toNat < 16 → part k = sealedPart (Fin.ofNat 16 k.toNat)) :
    netOf part terms = exactNet sealedPart terms := by
  rw [netOf, exactNet, holdSigned_eq]
  have hterms : (terms.map fun u => weight u.sign * ((part u.channel).toNat : Int)) =
      terms.map fun u => (if u.sign = 1 then 1 else -1) *
        ((sealedPart (Fin.ofNat 16 u.channel.toNat)).toNat : Int) := by
    refine List.map_congr_left fun u hu => ?_
    obtain ⟨hchannel, hsign⟩ := ht u hu
    rw [weight_eq hsign, h _ hchannel]
  rw [hterms]

section
variable {k : Byte} {s : State}

theorem channels_ofNat (h : k.toNat < 16) :
    s.channels[Fin.ofNat 16 k.toNat] = s.channels[k.toNat] := by
  simp [Nat.mod_eq_of_lt h]

theorem State.sealedWindow_of_lt (h : k.toNat < 16) :
    s.sealedWindow k = s.channels[Fin.ofNat 16 k.toNat].sealedWindow := by
  rw [State.sealedWindow, dif_pos h, channels_ofNat h]

theorem State.sealedCatchUp_of_lt (h : k.toNat < 16) :
    s.sealedCatchUp k = s.channels[Fin.ofNat 16 k.toNat].sealedCatchUp := by
  rw [State.sealedCatchUp, dif_pos h, channels_ofNat h]

theorem State.sealedEstimated_of_lt (h : k.toNat < 16) :
    s.sealedEstimated k = s.channels[Fin.ofNat 16 k.toNat].sealedEstimated := by
  rw [State.sealedEstimated, dif_pos h, channels_ofNat h]

theorem State.windowNet_eq {a : Account} (h : feedsSound a.contract.terms) : s.windowNet a =
    ⟨exactNet (fun k => s.channels[k].sealedWindow.active) a.contract.terms,
      exactNet (fun k => s.channels[k].sealedWindow.lagging) a.contract.terms,
      exactNet (fun k => s.channels[k].sealedWindow.leading) a.contract.terms⟩ := by
  rw [State.windowNet, netTriple]
  congr 1
  · exact netOf_eq h fun k hk => by rw [State.sealedWindow_of_lt hk]
  · exact netOf_eq h fun k hk => by rw [State.sealedWindow_of_lt hk]
  · exact netOf_eq h fun k hk => by rw [State.sealedWindow_of_lt hk]

theorem State.catchUpNet_eq {a : Account} (h : feedsSound a.contract.terms) : s.catchUpNet a =
    ⟨exactNet (fun k => s.channels[k].sealedCatchUp.active) a.contract.terms,
      exactNet (fun k => s.channels[k].sealedCatchUp.lagging) a.contract.terms,
      exactNet (fun k => s.channels[k].sealedCatchUp.leading) a.contract.terms⟩ := by
  rw [State.catchUpNet, netTriple]
  congr 1
  · exact netOf_eq h fun k hk => by rw [State.sealedCatchUp_of_lt hk]
  · exact netOf_eq h fun k hk => by rw [State.sealedCatchUp_of_lt hk]
  · exact netOf_eq h fun k hk => by rw [State.sealedCatchUp_of_lt hk]

theorem State.estimatedFor_iff {a : Account} (h : feedsSound a.contract.terms) :
    s.estimatedFor a = true ↔ ∃ u ∈ a.contract.terms,
      s.channels[Fin.ofNat 16 u.channel.toNat].sealedEstimated = true := by
  rw [State.estimatedFor, List.any_eq_true]
  refine exists_congr fun u => and_congr_right fun hu => ?_
  rw [State.sealedEstimated_of_lt (h u hu).1]

end

/-! ## Registers (R6, R115 to R117) -/

theorem EnergyRegister.add_value (r : EnergyRegister) (n : Nat) :
    (r.add n).value.toNat = min (2 ^ 48 - 1) (r.value.toNat + n) := by
  rw [EnergyRegister.add, Config.maxQuantity]
  split
  · next h =>
    rw [BitVec.toNat_ofNat]
    omega
  · next h =>
    rw [BitVec.toNat_ofNat]
    omega

theorem EnergyRegister.add_saturated (r : EnergyRegister) (n : Nat) :
    (r.add n).saturated = true ↔ r.saturated = true ∨ 2 ^ 48 - 1 < r.value.toNat + n := by
  rw [EnergyRegister.add, Config.maxQuantity]
  split
  · next h => exact ⟨.inl, fun hr => hr.resolve_right (by omega)⟩
  · next h => exact ⟨fun _ => .inr (by omega), fun _ => rfl⟩

section
variable {a : Account} {s : State} {r : RegisterSet}

theorem State.foldedSet_excessLeading : (s.foldedSet a r).excessLeading =
    if (s.attributes a.contract.schedule a.period).leadingPenalised = true then
      (r.excessLeading.add (s.windowNet a).leading.toNat).add (s.catchUpNet a).leading.toNat
    else r.excessLeading := by
  simp only [State.foldedSet, RegisterSet.count, RegisterSet.addPart]
  split <;> rfl

/-! ## The three courses of the fold (R118, R119) -/

theorem State.fold_irregular (h : s.sweep.kind = .irregular) :
    s.fold a = ({ s.foldedEnergy a with window := [] }, s.foldLatches a) := by
  rw [State.fold, h]

/-- R118: the record of a regular fold before its demand is evaluated. -/
def State.pushed (a : Account) (s : State) : Account :=
  { s.foldedEnergy a with
    window := pushWindow a.contract.windowLength.toNat (s.windowEntry a) a.window }

theorem State.fold_regular_short (h : s.sweep.kind = .regular)
    (hw : (s.pushed a).window.length ≠ a.contract.windowLength.toNat) :
    s.fold a = (s.pushed a, s.foldLatches a) := by
  rw [State.fold, h]
  exact if_neg hw

theorem State.fold_regular_full (h : s.sweep.kind = .regular)
    (hw : (s.pushed a).window.length = a.contract.windowLength.toNat) :
    s.fold a =
      (s.evaluated (s.demandFor a.contract.windowLength.toNat (s.pushed a).window) (s.pushed a),
        s.foldLatches a ++
          demandLatches (s.demandFor a.contract.windowLength.toNat (s.pushed a).window)
            (s.pushed a)) := by
  rw [State.fold, h]
  exact if_pos hw

theorem State.fold_regular_window (h : s.sweep.kind = .regular) :
    (s.fold a).1.window = (s.pushed a).window := by
  by_cases hw : (s.pushed a).window.length = a.contract.windowLength.toNat
  · rw [State.fold_regular_full h hw]
    rfl
  · rw [State.fold_regular_short h hw]

theorem registers_set_period (v : Vector RegisterSet 4) (p : Fin 4) (r r' : RegisterSet) :
    (v.set p r).set p r' = v.set p r' := by
  simp

theorem registers_set_other {p q : Fin 4} (h : q ≠ p) (v : Vector RegisterSet 4)
    (r : RegisterSet) : (v.set p r)[q] = v[q] := by
  have hne : (p : Nat) ≠ q := fun he => h (Fin.ext he.symm)
  simp [hne]

theorem registers_set_self (p : Fin 4) (v : Vector RegisterSet 4) (r : RegisterSet) :
    (v.set p r)[p] = r := by
  simp

/-- R115 to R117, R130: the fold changes the current period's set alone, to the folded one but for its
peak. -/
theorem State.fold_registers (a : Account) (s : State) : ∃ peak,
    (s.fold a).1.registers = a.registers.set a.period
      { s.foldedSet a a.registers[a.period] with peak := peak } := by
  cases hk : s.sweep.kind with
  | irregular => exact ⟨_, by rw [State.fold_irregular hk]; rfl⟩
  | regular =>
    by_cases hw : (s.pushed a).window.length = a.contract.windowLength.toNat
    · refine ⟨newPeak (s.demandFor a.contract.windowLength.toNat (s.pushed a).window)
        a.registers[a.period].peak, ?_⟩
      rw [State.fold_regular_full hk hw]
      simp only [State.evaluated, State.pushed, State.foldedEnergy, registers_set_period,
        registers_set_self]
      rfl
    · exact ⟨_, by rw [State.fold_regular_short hk hw]; rfl⟩

theorem State.fold_negativeNet (a : Account) (s : State) :
    (s.fold a).1.negativeNet = (a.negativeNet || decide ((s.windowNet a).active < 0)) := by
  cases hk : s.sweep.kind with
  | irregular => rw [State.fold_irregular hk]; rfl
  | regular =>
    by_cases hw : (s.pushed a).window.length = a.contract.windowLength.toNat
    · rw [State.fold_regular_full hk hw]; rfl
    · rw [State.fold_regular_short hk hw]; rfl

theorem mem_foldLatches (k : AttnKind) : k ∈ s.foldLatches a ↔
    k = .negativeNet ∧ (s.windowNet a).active < 0 ∧ a.negativeNet = false := by
  rw [State.foldLatches]
  split
  · next h =>
    rw [Bool.and_eq_true, decide_eq_true_eq, Bool.not_eq_true'] at h
    simp [h]
  · next h =>
    rw [Bool.and_eq_true, decide_eq_true_eq, Bool.not_eq_true'] at h
    simpa using fun _ hn hf => h ⟨hn, hf⟩

theorem mem_demandLatches (k : AttnKind) (d : Demand) : k ∈ demandLatches d a ↔
    k = .demandExceeded ∧ overContract a.contract.contractDemand d.demand = true ∧
      a.overContract = false := by
  rw [demandLatches]
  split
  · next h =>
    rw [Bool.and_eq_true, Bool.not_eq_true'] at h
    simp [h]
  · next h =>
    rw [Bool.and_eq_true, Bool.not_eq_true'] at h
    simpa using fun _ hn => by simpa using fun hf => h ⟨hn, hf⟩

/-- R114: NEGATIVE_NET is latched by the energy alone. -/
theorem State.negativeNet_mem_fold (a : Account) (s : State) :
    .negativeNet ∈ (s.fold a).2 ↔ (s.windowNet a).active < 0 ∧ a.negativeNet = false := by
  have hlatch := mem_foldLatches (a := a) (s := s) .negativeNet
  cases hk : s.sweep.kind with
  | irregular => rw [State.fold_irregular hk, hlatch]; simp
  | regular =>
    by_cases hw : (s.pushed a).window.length = a.contract.windowLength.toNat
    · rw [State.fold_regular_full hk hw, List.mem_append, mem_demandLatches, hlatch]
      simp
    · rw [State.fold_regular_short hk hw, hlatch]; simp

/-- R118: a window within its length takes the entry, and drops its oldest where it is full. -/
theorem pushWindow_eq {w : Nat} {l : List WindowEntry} (hl : l.length ≤ w)
    (e : WindowEntry) :
    pushWindow w e l = (if l.length < w then l else l.drop 1) ++ [e] := by
  rw [pushWindow]
  split
  · next h => rw [show l.length + 1 - w = 0 by omega, List.drop_zero]
  · next h => rw [show l.length + 1 - w = 1 by omega]

theorem length_pushWindow {w : Nat} {l : List WindowEntry} (hw : 1 ≤ w) (hl : l.length ≤ w)
    (e : WindowEntry) : (pushWindow w e l).length = min (l.length + 1) w := by
  rw [pushWindow, List.length_append, List.length_drop, List.length_singleton]
  omega

end

/-- Settles O44: the nets and the registers by their definitions, the record by the course of the
fold. -/
theorem foldAddsToTheCurrentPeriod : Obligations.FoldAddsToTheCurrentPeriod := by
  refine ⟨fun a s ht => ?nets,
    fun r n => ⟨EnergyRegister.add_value r n, EnergyRegister.add_saturated r n⟩,
    fun a s => ?record⟩
  case nets =>
    have hwindow := State.windowNet_eq (s := s) ht
    have hcatchUp := State.catchUpNet_eq (s := s) ht
    exact ⟨by rw [hwindow], by rw [hwindow], by rw [hwindow], by rw [hcatchUp],
      by rw [hcatchUp], by rw [hcatchUp], State.estimatedFor_iff ht⟩
  case record =>
    intro b old new w c m
    obtain ⟨peak, hregisters⟩ := State.fold_registers a s
    have hnew : new = { s.foldedSet a old with peak := peak } := by
      show (s.fold a).1.registers[a.period] = _
      rw [hregisters, registers_set_self]
    have hframe : b = _ := State.fold_frame a s
    refine ⟨fun p hp => ?others, by rw [hnew]; rfl, by rw [hnew]; rfl, by rw [hnew]; rfl,
      by rw [hnew]; rfl, by rw [hnew]; exact State.foldedSet_excessLeading,
      by rw [hnew]; rfl, by rw [hnew]; rfl, State.fold_negativeNet a s,
      State.negativeNet_mem_fold a s, fun hk => ?irregular, fun hk h1 hl => ?regular,
      by rw [hframe], by rw [hframe], by rw [hframe], by rw [hframe], by rw [hframe],
      by rw [hframe], by rw [hframe], by rw [hframe]⟩
    case others =>
      show (s.fold a).1.registers[p] = _
      rw [hregisters, registers_set_other hp]
    case irregular =>
      have hfold := State.fold_irregular (a := a) hk
      have hb : b = { s.foldedEnergy a with window := [] } := congrArg Prod.fst hfold
      refine ⟨by rw [hb], ?_, by rw [hb]; rfl, by rw [hb]; rfl⟩
      show b.registers[a.period].peak = _
      rw [hb]
      show (a.registers.set a.period _)[a.period].peak = _
      rw [registers_set_self]
      rfl
    case regular =>
      have hb : b.window = (s.pushed a).window := State.fold_regular_window hk
      rw [hb]
      exact ⟨length_pushWindow h1 hl _, pushWindow_eq hl _⟩

end Sys2Proof.Machine

/-!
PROOFS. Demand and its evaluation (R118, R125, R129 to R135): the demand of a window, the peak record,
the over-contract flag and the top list.
-/

namespace Sys2Proof.Machine

/-! ## Demand and the peak record (R125, R130, R131) -/

theorem holdWord_toNat (n : Nat) : (holdWord n).toNat = min (2 ^ 32 - 1) n := by
  rw [holdWord]
  split
  · next h =>
    rw [BitVec.toNat_ofNat]
    omega
  · next h =>
    rw [BitVec.toNat_allOnes]
    omega

theorem newPeak_none (d : Demand) :
    newPeak d none = some ⟨d.demand, d.reactive, d.endTime, d.estimated, d.timeUnsure⟩ := rfl

section
variable {d : Demand} {p : PeakRecord}

theorem newPeak_greater (h : p.demand.toNat < d.demand.toNat) : newPeak d (some p) =
    some ⟨d.demand, d.reactive, d.endTime, d.estimated, d.timeUnsure⟩ := if_pos h

theorem newPeak_kept (h : d.demand.toNat ≤ p.demand.toNat) : newPeak d (some p) = some p :=
  if_neg (Nat.not_lt.mpr h)

end

theorem overContract_iff (contractDemand demand : Word) :
    overContract contractDemand demand = true ↔
      contractDemand ≠ 0 ∧ contractDemand.toNat < demand.toNat := by
  rw [overContract, Bool.and_eq_true, bne_iff_ne, decide_eq_true_eq]

section
variable {d : Demand} {a : Account} {s : State}

theorem demandExceeded_mem_demandLatches : .demandExceeded ∈ demandLatches d a ↔
    (s.evaluated d a).overContract = true ∧ a.overContract = false := by
  rw [mem_demandLatches]
  exact and_iff_right rfl

theorem State.evaluated_registers : (s.evaluated d a).registers = a.registers.set a.period
    { a.registers[a.period] with peak := newPeak d a.registers[a.period].peak } := rfl

theorem State.evaluated_topList : (s.evaluated d a).topList =
    if (s.attributes a.contract.schedule a.period).demandChargeable = true then
      offerTop a.contract.peaksAveraged.toNat (decide (a.contract.onePerDay ≠ 0))
        ⟨d.demand, d.endTime, dayOfDemand d.endTime, d.estimated, d.timeUnsure⟩ a.topList
    else a.topList := by
  rw [State.evaluated, oneADay_eq]
  rfl

/-! ## The fold and its demand (R118, R129) -/

theorem State.pushed_peak (a : Account) (s : State) :
    (s.pushed a).registers[a.period].peak = a.registers[a.period].peak := by
  show (a.registers.set a.period _)[a.period].peak = _
  rw [registers_set_self]
  rfl

theorem demandExceeded_not_mem_foldLatches : .demandExceeded ∉ s.foldLatches a := by
  rw [mem_foldLatches]
  exact fun h => AttnKind.noConfusion h.1

/-- R118: a window not yet full gives no demand. -/
theorem State.fold_short (h : s.sweep.kind = .regular)
    (hw : (s.fold a).1.window.length < a.contract.windowLength.toNat) :
    (s.fold a).1.registers[a.period].peak = a.registers[a.period].peak ∧
      (s.fold a).1.overContract = a.overContract ∧ (s.fold a).1.topList = a.topList ∧
      .demandExceeded ∉ (s.fold a).2 := by
  rw [State.fold_regular_window h] at hw
  rw [State.fold_regular_short h hw.ne]
  exact ⟨State.pushed_peak a s, rfl, rfl, demandExceeded_not_mem_foldLatches⟩

/-- R129 to R131: a full window's demand is evaluated as on the account before the fold. -/
theorem State.fold_full (h : s.sweep.kind = .regular)
    (hw : (s.fold a).1.window.length = a.contract.windowLength.toNat)
    (hd : s.demandFor a.contract.windowLength.toNat (s.fold a).1.window = d) :
    (s.fold a).1.registers[a.period].peak = newPeak d a.registers[a.period].peak ∧
      (s.fold a).1.overContract = (s.evaluated d a).overContract ∧
      (s.fold a).1.topList = (s.evaluated d a).topList ∧
      (.demandExceeded ∈ (s.fold a).2 ↔
        (s.fold a).1.overContract = true ∧ a.overContract = false) := by
  rw [State.fold_regular_window h] at hw hd
  rw [State.fold_regular_full h hw, hd]
  refine ⟨?_, rfl, rfl, ?_⟩
  · show (s.evaluated d (s.pushed a)).registers[a.period].peak = _
    rw [State.evaluated_registers, ← State.pushed_peak a s]
    exact congrArg RegisterSet.peak (registers_set_self _ _ _)
  · rw [List.mem_append, or_iff_right demandExceeded_not_mem_foldLatches,
      demandExceeded_mem_demandLatches (s := s)]
    rfl

end

/-! ## The top list (R133 to R135) -/

section
variable {n : Nat} {oneDay : Bool} {e held last : TopEntry} {l : List TopEntry}

theorem placeEntry_entered (h : topDescends l = true) : placeEntry e l = entered e l :=
  placeEntry_eq h

theorem placeEntry_perm (e : TopEntry) : ∀ l : List TopEntry, (placeEntry e l).Perm (e :: l)
  | [] => .refl _
  | x :: xs => by
    rw [placeEntry]
    split
    · exact ((placeEntry_perm e xs).cons x).trans (.swap e x xs)
    · exact .refl _

/-- R135: where no entry has the demand's day, the offer is judged against the whole list. -/
theorem offerTop_of_no_day (h : oneDay = true → ∀ x ∈ l, x.day ≠ e.day) :
    offerTop n oneDay e l = offerEntry n e l := by
  cases oneDay with
  | false => rfl
  | true =>
    have hnone : entryOfDay e.day l = none := by
      rw [entryOfDay, List.find?_eq_none]
      exact fun x hx => by simpa using h rfl x hx
    simp only [offerTop, hnone]

theorem offerEntry_of_lt (h : l.length < n) : offerEntry n e l = placeEntry e l := if_pos h

theorem offerEntry_full (h : l.length = n) (hlast : l.getLast? = some last) : offerEntry n e l =
    if last.demand.toNat < e.demand.toNat then placeEntry e l.dropLast else l := by
  rw [offerEntry, if_neg (by omega), hlast]

/-- R135: with one entry a day, that of a day is found. -/
theorem entryOfDay_of_mem (hn : (l.map TopEntry.day).Nodup) (hm : held ∈ l) :
    entryOfDay held.day l = some held := by
  induction l with
  | nil => cases hm
  | cons x xs ih =>
    rw [List.map_cons, List.nodup_cons] at hn
    rw [entryOfDay, List.find?_cons]
    rcases List.mem_cons.mp hm with rfl | hm
    · simp
    · have hne : x.day ≠ held.day := fun he => hn.1 (he ▸ List.mem_map_of_mem hm)
      rw [decide_eq_false hne]
      exact ih hn.2 hm

/-- R135: with one entry a day, removing the first of a day removes all of that day. -/
theorem eraseP_day (day : Date) (hn : (l.map TopEntry.day).Nodup) :
    l.eraseP (fun x => decide (x.day = day)) = l.filter fun x => decide (x.day ≠ day) := by
  induction l with
  | nil => rfl
  | cons x xs ih =>
    rw [List.map_cons, List.nodup_cons] at hn
    by_cases hx : x.day = day
    · have hrest : xs.filter (fun y => decide (y.day ≠ day)) = xs := by
        refine List.filter_eq_self.mpr fun y hy => decide_eq_true fun hd => hn.1 ?_
        rw [hx, ← hd]
        exact List.mem_map_of_mem hy
      rw [List.eraseP_cons_of_pos (by simpa using hx), List.filter_cons_of_neg (by simpa using hx),
        hrest]
    · rw [List.eraseP_cons_of_neg (by simpa using hx), List.filter_cons_of_pos (by simpa using hx),
        ih hn.2]

/-- R135: a demand of a day already held is judged against the entry of that day. -/
theorem offerTop_of_held (hn : (l.map TopEntry.day).Nodup) (hm : held ∈ l)
    (hd : held.day = e.day) : offerTop n true e l =
      if held.demand.toNat < e.demand.toNat then
        placeEntry e (l.filter fun x => decide (x.day ≠ e.day))
      else l := by
  simp only [offerTop, ← hd, entryOfDay_of_mem hn hm, eraseP_day _ hn]

theorem placeEntry_days_nodup (hn : (l.map TopEntry.day).Nodup) (h : ∀ x ∈ l, x.day ≠ e.day) :
    ((placeEntry e l).map TopEntry.day).Nodup := by
  rw [((placeEntry_perm e l).map TopEntry.day).nodup_iff, List.map_cons, List.nodup_cons]
  refine ⟨fun hm => ?_, hn⟩
  obtain ⟨x, hx, hd⟩ := List.mem_map.mp hm
  exact h x hx hd

theorem offerEntry_days_nodup (hn : (l.map TopEntry.day).Nodup) (h : ∀ x ∈ l, x.day ≠ e.day) :
    ((offerEntry n e l).map TopEntry.day).Nodup := by
  rw [offerEntry]
  split
  · exact placeEntry_days_nodup hn h
  · split
    · exact hn
    · split
      · have hsub : l.dropLast.Sublist l := List.dropLast_sublist l
        exact placeEntry_days_nodup (hn.sublist (hsub.map _)) fun x hx => h x (hsub.mem hx)
      · exact hn

/-- R135: with one-per-day the list keeps one entry a day. -/
theorem offerTop_days_nodup (hn : (l.map TopEntry.day).Nodup) :
    ((offerTop n true e l).map TopEntry.day).Nodup := by
  by_cases h : ∃ x ∈ l, x.day = e.day
  · obtain ⟨x, hx, hd⟩ := h
    rw [offerTop_of_held hn hx hd]
    split
    · exact placeEntry_days_nodup (hn.sublist (List.filter_sublist.map _))
        fun y hy => of_decide_eq_true (List.mem_filter.mp hy).2
    · exact hn
  · rw [offerTop_of_no_day fun _ x hx hd => h ⟨x, hx, hd⟩]
    exact offerEntry_days_nodup hn fun x hx hd => h ⟨x, hx, hd⟩

end

/-- Settles O45, part by part: the demand, the peak, the evaluation, the fold that calls it, and the
offer to the top list. -/
theorem demandIsEvaluated : Obligations.DemandIsEvaluated := by
  refine ⟨fun part w length l => holdWord_toNat _,
    fun d p => ⟨newPeak_none d, newPeak_greater, newPeak_kept⟩,
    fun d a s => ⟨overContract_iff _ _, demandExceeded_mem_demandLatches, ?own,
      fun p hp => ?others, State.evaluated_topList, rfl⟩,
    fun a s hk h1 hl => ⟨State.fold_short hk, fun hw => State.fold_full hk hw rfl⟩,
    fun n oneDay e l hdesc hl => ⟨offerTop_descends hdesc, length_offerTop hl, fun hno => ?whole,
      fun hone hn => ?daily⟩⟩
  case own => rw [State.evaluated_registers, registers_set_self]
  case others => rw [State.evaluated_registers, registers_set_other hp]
  case whole =>
    have hdrop : topDescends l.dropLast = true :=
      topDescends_sublist (List.dropLast_sublist l) hdesc
    rw [offerTop_of_no_day hno]
    refine ⟨fun hlt => ?_, fun last hfull hlast => ⟨fun hlt => ?_, fun hle => ?_⟩⟩
    · rw [offerEntry_of_lt hlt, placeEntry_entered hdesc]
    · rw [offerEntry_full hfull hlast, if_pos hlt, placeEntry_entered hdrop]
    · rw [offerEntry_full hfull hlast, if_neg (Nat.not_lt.mpr hle)]
  case daily =>
    subst hone
    refine ⟨offerTop_days_nodup hn, fun held hm hd => ⟨fun hlt => ?_, fun hle => ?_⟩⟩
    · rw [offerTop_of_held hn hm hd, if_pos hlt,
        placeEntry_entered (topDescends_sublist List.filter_sublist hdesc)]
    · rw [offerTop_of_held hn hm hd, if_neg (Nat.not_lt.mpr hle)]

end Sys2Proof.Machine

/-!
PROOFS. What a close freezes and clears, and the ratchet it leaves (R137 to R141, R145, R146).
-/

namespace Sys2Proof.Machine

/-! ## The ratchet (R139, R141) -/

theorem ratchetRunsDown_eq (value : Word) (remaining : Nat) : ratchetRunsDown value remaining =
    if remaining = 0 then (value, 0)
    else (if remaining = 1 then 0 else value, remaining - 1) := by
  rw [ratchetRunsDown]
  split
  · rfl
  · next h =>
    have hone : remaining - 1 = 0 ↔ remaining = 1 := by omega
    simp only [hone]

theorem ratchetRunsDown_of_pos {remaining : Nat} (h : 1 ≤ remaining) (value : Word) :
    ratchetRunsDown value remaining = (if remaining = 1 then 0 else value, remaining - 1) := by
  rw [ratchetRunsDown_eq, if_neg (by omega)]

theorem percentInRange_iff (n : Nat) :
    percentInRange n = true ↔ n = 0 ∨ (50 ≤ n ∧ n ≤ 100) := by
  simp [percentInRange]

section
variable {faulted : Bool} {c : ContractImage} {average value : Word} {remaining : Nat}

theorem ratchetAfter_percent_zero (h : c.ratchetPercent.toNat = 0) :
    ratchetAfter faulted c average value remaining = ratchetRunsDown value remaining := by
  unfold ratchetAfter
  exact if_pos (.inl h)

/-- R141: a FAULTED contract whose percent is 0 or out of range does not renew the ratchet. -/
theorem ratchetAfter_faulted_out_of_range
    (h : c.ratchetPercent.toNat < 50 ∨ 100 < c.ratchetPercent.toNat) :
    ratchetAfter true c average value remaining = ratchetRunsDown value remaining := by
  unfold ratchetAfter
  by_cases h0 : c.ratchetPercent.toNat = 0
  · exact if_pos (.inl h0)
  · refine if_pos (.inr ⟨rfl, Bool.eq_false_iff.mpr fun hr => ?_⟩)
    rw [percentInRange_iff] at hr
    omega

variable (h50 : 50 ≤ c.ratchetPercent.toNat) (h100 : c.ratchetPercent.toNat ≤ 100)
include h50 h100

/-- R139: with a percent in its range the candidate decides. -/
theorem ratchetAfter_in_range : ratchetAfter faulted c average value remaining =
    if average.toNat * c.ratchetPercent.toNat / 100 < value.toNat then
      ratchetRunsDown value remaining
    else if faulted then
      (BitVec.ofNat 32 (average.toNat * c.ratchetPercent.toNat / 100),
        clampPeriods c.ratchetPeriods.toNat)
    else if 1 ≤ c.ratchetPeriods.toNat ∧ c.ratchetPeriods.toNat ≤ 12 then
      (BitVec.ofNat 32 (average.toNat * c.ratchetPercent.toNat / 100), c.ratchetPeriods.toNat)
    else Config.freeRatchet c.ratchetPercent c.ratchetPeriods average value remaining := by
  have hrange : percentInRange c.ratchetPercent.toNat = true :=
    (percentInRange_iff _).mpr (.inr ⟨h50, h100⟩)
  unfold ratchetAfter
  rw [if_neg (by rw [hrange]; simp; omega), if_neg (by rw [hrange]; exact Bool.noConfusion)]

omit h50 in
/-- R139: a candidate fits a word. -/
theorem candidate_toNat : (BitVec.ofNat 32
    (average.toNat * c.ratchetPercent.toNat / 100)).toNat =
      average.toNat * c.ratchetPercent.toNat / 100 := by
  have hle : average.toNat * c.ratchetPercent.toNat ≤ average.toNat * 100 :=
    Nat.mul_le_mul_left _ h100
  have hlt := average.isLt
  rw [BitVec.toNat_ofNat]
  omega

theorem ratchetAfter_runs_down
    (h : average.toNat * c.ratchetPercent.toNat / 100 < value.toNat) :
    ratchetAfter faulted c average value remaining = ratchetRunsDown value remaining := by
  rw [ratchetAfter_in_range h50 h100, if_pos h]

theorem ratchetAfter_renewed
    (h : value.toNat ≤ average.toNat * c.ratchetPercent.toNat / 100)
    (hp : 1 ≤ c.ratchetPeriods.toNat) (hp' : c.ratchetPeriods.toNat ≤ 12) :
    ratchetAfter false c average value remaining =
      (BitVec.ofNat 32 (average.toNat * c.ratchetPercent.toNat / 100),
        c.ratchetPeriods.toNat) := by
  rw [ratchetAfter_in_range h50 h100, if_neg (Nat.not_lt.mpr h), if_neg Bool.false_ne_true,
    if_pos ⟨hp, hp'⟩]

theorem ratchetAfter_faulted_renewed
    (h : value.toNat ≤ average.toNat * c.ratchetPercent.toNat / 100) :
    ratchetAfter true c average value remaining =
      (BitVec.ofNat 32 (average.toNat * c.ratchetPercent.toNat / 100),
        clampPeriods c.ratchetPeriods.toNat) := by
  rw [ratchetAfter_in_range h50 h100, if_neg (Nat.not_lt.mpr h), if_pos rfl]

end

/-! ## The average of a FAULTED contract (R141) -/

theorem peaksInRange_iff (n : Nat) : peaksInRange n = true ↔ 1 ≤ n ∧ n ≤ 4 := by
  rw [peaksInRange, Bool.and_eq_true, decide_eq_true_eq, decide_eq_true_eq]

theorem topListAverage_faulted_in_range {n : Byte} (h1 : 1 ≤ n.toNat) (h4 : n.toNat ≤ 4)
    (l : List TopEntry) : topListAverage true n l = topListAverage false n l := by
  rw [topListAverage, topListAverage, (peaksInRange_iff _).mpr ⟨h1, h4⟩]
  rfl

/-- R141: an N out of range is replaced by the number of entries held. -/
theorem topListAverage_faulted_out_of_range {n : Byte} (h : n.toNat = 0 ∨ 4 < n.toNat)
    (l : List TopEntry) :
    (topListAverage true n l).toNat = (l.map fun e => e.demand.toNat).sum / l.length := by
  have hrange : peaksInRange n.toNat = false :=
    Bool.eq_false_iff.mpr fun hr => by
      rw [peaksInRange_iff] at hr
      omega
  cases l with
  | nil => rfl
  | cons e rest =>
    rw [topListAverage, if_neg (List.cons_ne_nil e rest), hrange]
    exact averageOver_toNat (Nat.succ_pos _) (demandSum_div_lt (Nat.succ_pos _) le_rfl)

/-! ## The estimated mark of a snapshot (R146) -/

theorem registerEstimated_iff (r : RegisterSet) :
    (r.estimatedCount != 0 ||
      match r.peak with
      | some p => p.estimated
      | none => false) = true ↔
      r.estimatedCount ≠ 0 ∨ ∃ p, r.peak = some p ∧ p.estimated = true := by
  rw [Bool.or_eq_true, bne_iff_ne]
  refine or_congr_right ?_
  cases r.peak <;> simp

theorem estimatedAny_iff (registers : Vector RegisterSet 4) (l : List TopEntry) :
    estimatedAny registers l = true ↔
      (∃ k : Fin 4, registers[k].estimatedCount ≠ 0 ∨
        ∃ r, registers[k].peak = some r ∧ r.estimated = true) ∨
      ∃ e ∈ l, e.estimated = true := by
  rw [estimatedAny, Bool.or_eq_true, List.any_eq_true, List.any_eq_true]
  refine or_congr_left ⟨fun ⟨r, hr, h⟩ => ?_, fun ⟨k, h⟩ => ?_⟩
  · obtain ⟨j, hj, rfl⟩ := List.getElem_of_mem hr
    rw [Vector.length_toList] at hj
    rw [Vector.getElem_toList] at h
    exact ⟨⟨j, hj⟩, (registerEstimated_iff _).mp h⟩
  · exact ⟨registers[k], Vector.mem_toList_iff.mpr (Vector.getElem_mem _),
      (registerEstimated_iff _).mpr h⟩

/-- Settles O47: the ratchet by the percent and the candidate, the average by N, the rest by what the
close writes. -/
theorem closeFreezesThePeriod : Obligations.CloseFreezesThePeriod := by
  refine ⟨fun c average value remaining hp hp' => ⟨fun h50 h100 h => ?renewed,
      fun h50 h100 h hr => ?down, fun h0 hr => ?zero, fun h0 hr => ?ended⟩,
    fun n l => ⟨fun h => topListAverage_faulted_out_of_range h l,
      fun h1 h4 => topListAverage_faulted_in_range h1 h4 l⟩,
    fun c average value remaining => ⟨fun h => ?faultedOut, fun h50 h100 h => ?faultedRenewed,
      fun h50 h100 h => ?faultedDown⟩,
    fun faulted final time a => ⟨_, closed_snapshot faulted final time a, rfl, rfl, rfl, rfl, rfl,
      rfl, estimatedAny_iff a.registers a.topList, rfl, rfl, rfl, rfl, rfl, rfl, rfl, rfl, rfl, rfl,
      rfl⟩⟩
  case renewed =>
    rw [ratchetAfter_renewed h50 h100 h hp hp']
    exact ⟨candidate_toNat h100, rfl⟩
  case down => rw [ratchetAfter_runs_down h50 h100 h, ratchetRunsDown_of_pos hr]
  case zero => rw [ratchetAfter_percent_zero h0, ratchetRunsDown_of_pos hr]
  case ended => rw [ratchetAfter_percent_zero h0, hr, ratchetRunsDown_eq, if_pos rfl]
  case faultedOut => rw [ratchetAfter_faulted_out_of_range h, ratchetRunsDown_eq]
  case faultedRenewed =>
    rw [ratchetAfter_faulted_renewed h50 h100 h]
    exact ⟨candidate_toNat h100, rfl⟩
  case faultedDown => rw [ratchetAfter_runs_down h50 h100 h, ratchetRunsDown_eq]

end Sys2Proof.Machine

/-!
PROOFS. Half a second on an empty queue of commands (R29, R30, R42, R72, R73, R80, R188): the clock,
then every presence timer, then every hold timer.
-/

namespace Sys2Proof.Machine

/-! ## The clock's half second (R29, R30) -/

theorem State.advanceSecond_eq (s : State) : s.advanceSecond = secondPassed s := by
  rw [secondPassed]
  split
  · next h => exact State.advanceSecond_awake h
  · next h => exact State.advanceSecond_held (Bool.eq_false_iff.mpr h)

theorem State.fallBack_eq (s : State) : s.fallBack =
    if s.awake = true then
      State.latch .clockIrregular 0
        (secondPassed (secondPassed (secondPassed { s with clock := fallenBack s.clock })))
    else secondPassed (secondPassed (secondPassed { s with clock := fallenBack s.clock })) := by
  simp only [← State.advanceSecond_eq]
  rfl

theorem State.tickClock_eq (s : State) : s.tickClock = clockHalf s := by
  rw [State.tickClock, clockHalf]
  cases s.clock.source with
  | internal => rw [State.advanceSecond_eq]; rfl
  | pulse => rw [State.fallBack_eq]; rfl

/-- What a clock set, a second and the fallback all leave, the clock's half second leaves. -/
theorem State.tickClock_keeps {α : Type} (f : State → α) (hset : ∀ s c, f (State.setClock c s) = f s)
    (hsecond : ∀ s, f (State.advanceSecond s) = f s) (hfall : ∀ s, f (State.fallBack s) = f s)
    (s : State) : f s.tickClock = f s := by
  rw [State.tickClock]
  cases s.clock.source with
  | internal =>
    dsimp only
    split
    · exact hset s _
    · exact (hsecond _).trans (hset s _)
  | pulse =>
    dsimp only
    split
    · exact hset s _
    · exact hfall s

theorem State.advanceSecond_mask (s : State) :
    s.advanceSecond.attention.mask = s.attention.mask := by
  rw [State.advanceSecond]
  split
  · rcases State.boundaryAtSecond_cases (s.setClock s.clock.nextSecond.countSecond)
      (decide (s.clock.time = CalTime.last)) with h | h | h <;> rw [h] <;> simp
  · rfl

theorem State.fallBack_mask (s : State) : s.fallBack.attention.mask = s.attention.mask := by
  rw [State.fallBack]
  dsimp only
  split <;> simp [State.advanceSecond_mask]

/-! ## The timers' half second (R72 to R74, R80, R88) -/

theorem Channel.presenceTicked_eq (c : Channel) : c.presenceTicked = presenceHalf c := by
  rw [Channel.presenceTicked, presenceHalf]
  refine if_congr Iff.rfl ?_ rfl
  by_cases hh : c.timerHalves ≤ 1
  · rw [if_pos hh, if_neg (Nat.not_lt.mpr hh)]
    by_cases hl : c.state = .live
    · rw [if_pos hl, if_pos hl, if_pos hl]
      rfl
    · rw [if_neg hl, if_neg hl, if_neg hl]
  · rw [if_neg hh, if_pos (Nat.lt_of_not_le hh)]

theorem Link.refresh_eq (h : Nat) (congested : Bool) (l : Link) : l.refresh h congested =
    if l.flow = .held ∧ congested = true ∧ l.waitingControl = none then
      controlAsked h .hold .held l
    else l := by
  rw [Link.refresh, Link.sendControl_eq]

theorem Link.expire_eq (l : Link) : l.expire =
    if l.flow = .held ∨ l.flow = .releasePending then
      { l with holdTimer := none, flow := .flowing, waitingControl := none }
    else { l with holdTimer := none } := by
  split
  · next h => exact Link.expire_held h
  · next h =>
    refine Link.expire_other ?_
    cases hf : l.flow with
    | flowing => exact .inr rfl
    | holdPending => exact .inl rfl
    | held => exact absurd (.inl hf) h
    | releasePending => exact absurd (.inr hf) h

theorem Link.holdTicked_eq (h : Nat) (congested : Bool) (l : Link) :
    l.holdTicked h congested = holdHalf h congested l := by
  rw [Link.holdTicked, holdHalf]
  cases l.holdTimer with
  | none => rfl
  | some halves =>
    dsimp only
    rw [Link.refresh_eq, Link.expire_eq]

/-- R74: a link that is FLOWING stays so through its hold timer's half second, so that a channel's
timer is touched only where its link returns to FLOWING. -/
theorem retimed_of_stays {was now : FlowState} (h : was = .flowing → now = .flowing) (c : Channel) :
    retimed (decide (was = .flowing)) (decide (now = .flowing)) c =
      if was ≠ .flowing ∧ now = .flowing ∧ c.state ≠ .unregistered then
        { c with timerHalves := 2 * c.timeout, timerMode := .running }
      else c := by
  by_cases hw : was = .flowing
  · rw [h hw, hw, retimed_same, if_neg fun hc => hc.1 rfl]
  · by_cases hn : now = .flowing
    · rw [decide_eq_false hw, decide_eq_true hn]
      by_cases hu : c.state = .unregistered
      · rw [if_neg fun hc => hc.2.2 hu]
        exact if_pos hu
      · rw [if_pos ⟨hw, hn, hu⟩]
        exact if_neg hu
    · rw [decide_eq_false hw, decide_eq_false hn, retimed_same, if_neg fun hc => hn hc.2.1]

/-! ## The half second of an awake part -/

/-- The state once the clock and every presence timer have counted. -/
def presencePassed (s : State) : State :=
  channelNumbers.foldl (fun t k => t.tickPresence k) (clockHalf s)

section
variable (s : State)

theorem presencePassed_frame : presencePassed s =
    ((clockHalf s).setChannels (presencePassed s).channels).setAttention
      (presencePassed s).attention :=
  State.presenceFold_frame _ _

/-- The presence timers reach the channels and the pending set alone. -/
theorem presencePassed_keeps {α : Type} (f : State → α)
    (h : ∀ t c a, f (State.setAttention a (State.setChannels c t)) = f t) :
    f (presencePassed s) = f (clockHalf s) :=
  (congrArg f (presencePassed_frame s)).trans (h ..)

theorem mem_channelNumbers (k : Fin 16) : k ∈ channelNumbers := by simp [channelNumbers]

theorem nodup_channelNumbers : channelNumbers.Nodup := List.nodup_finRange 16

theorem clockHalf_channels : (clockHalf s).channels = s.channels := by
  rw [← State.tickClock_eq]
  exact State.tickClock_keeps State.channels (fun _ _ => rfl) State.advanceSecond_channels
    State.fallBack_channels s

theorem presencePassed_channel (k : Fin 16) :
    (presencePassed s).channels[k] = presenceHalf s.channels[k] := by
  rw [presencePassed, State.presenceFold_channel _ _ nodup_channelNumbers,
    if_pos (mem_channelNumbers k), Channel.presenceTicked_eq, clockHalf_channels]

theorem mem_presencePassed (p : AttnPair) : p ∈ (presencePassed s).attention.pendingSet ↔
    p ∈ (clockHalf s).attention.pendingSet ∨
      ∃ k : Fin 16, p = ⟨.channelSilent, k.val⟩ ∧ s.channels[k].state = .live ∧
        s.channels[k].timerMode = .running ∧ s.channels[k].timerHalves ≤ 1 := by
  rw [presencePassed, State.mem_presenceFold _ _ nodup_channelNumbers, clockHalf_channels, or_comm]
  refine or_congr_right (exists_congr fun k => ⟨?_, ?_⟩)
  · rintro ⟨-, ⟨hrunning, hout⟩, hlive, hp⟩
    exact ⟨hp, hlive, hrunning, hout⟩
  · rintro ⟨hp, hlive, hrunning, hout⟩
    exact ⟨mem_channelNumbers k, ⟨hrunning, hout⟩, hlive, hp⟩

theorem clockHalf_holdTime : (clockHalf s).holdTime = s.holdTime := by
  rw [← State.tickClock_eq]
  exact State.tickClock_keeps State.holdTime (fun _ _ => rfl) State.advanceSecond_holdTime
    State.fallBack_holdTime s

/-- What the whole half second of an awake part leaves. -/
def halfSecondLater : State :=
  (presencePassed s).eachLink (holdHalf s.holdTime (clockHalf s).queue.congested)

theorem State.tick_eq_halfSecondLater (ha : s.awake = true) : s.tick = halfSecondLater s := by
  have hhold : Link.holdTicked s.holdTime (clockHalf s).queue.congested =
      holdHalf s.holdTime (clockHalf s).queue.congested := funext (Link.holdTicked_eq _ _)
  rw [State.tick_awake ha, State.tickClock_eq, clockHalf_holdTime, hhold, halfSecondLater,
    presencePassed]

theorem halfSecondLater_link (n : Fin 4) : (halfSecondLater s).links[n] =
    holdHalf s.holdTime (clockHalf s).queue.congested (clockHalf s).links[n] := by
  rw [halfSecondLater, State.eachLink_link, presencePassed_keeps s State.links fun _ _ _ => rfl]

theorem halfSecondLater_channel (k : Fin 16) : (halfSecondLater s).channels[k] =
    if (clockHalf s).links[linkOf k].flow ≠ .flowing ∧
        (halfSecondLater s).links[linkOf k].flow = .flowing ∧
        (presenceHalf s.channels[k]).state ≠ .unregistered then
      { presenceHalf s.channels[k] with
        timerHalves := 2 * (presenceHalf s.channels[k]).timeout, timerMode := .running }
    else presenceHalf s.channels[k] := by
  have hlinks := presencePassed_keeps s State.links fun _ _ _ => rfl
  rw [halfSecondLater_link, halfSecondLater, State.eachLink_channel, presencePassed_channel,
    State.flowing, hlinks]
  refine retimed_of_stays (fun hf => ?_) _
  rw [← Link.holdTicked_eq]
  exact Link.holdTicked_flowing _ _ hf

theorem halfSecondLater_of_clock :
    (halfSecondLater s).clock = (clockHalf s).clock ∧
      (halfSecondLater s).queue = (clockHalf s).queue ∧
      (halfSecondLater s).sweep = (clockHalf s).sweep := by
  rw [halfSecondLater, State.eachLink_clock, State.eachLink_queue, State.eachLink_sweep]
  exact ⟨presencePassed_keeps s State.clock fun _ _ _ => rfl,
    presencePassed_keeps s State.queue fun _ _ _ => rfl,
    presencePassed_keeps s State.sweep fun _ _ _ => rfl⟩

theorem halfSecondLater_frame :
    (halfSecondLater s).holdTime = s.holdTime ∧ (halfSecondLater s).slots = s.slots ∧
      (halfSecondLater s).directory = s.directory ∧ (halfSecondLater s).tariff = s.tariff ∧
      (halfSecondLater s).port = s.port ∧ (halfSecondLater s).device = s.device ∧
      (halfSecondLater s).pending = s.pending := by
  have hkeeps {α : Type} (f : State → α)
      (hchannels : ∀ t c a, f (State.setAttention a (State.setChannels c t)) = f t)
      (hset : ∀ t c, f (State.setClock c t) = f t)
      (hsecond : ∀ t, f (State.advanceSecond t) = f t)
      (hfall : ∀ t, f (State.fallBack t) = f t) : f (presencePassed s) = f s := by
    rw [presencePassed_keeps s f hchannels, ← State.tickClock_eq]
    exact State.tickClock_keeps f hset hsecond hfall s
  rw [halfSecondLater, State.eachLink_holdTime, State.eachLink_slots, State.eachLink_directory,
    State.eachLink_tariff, State.eachLink_port, State.eachLink_device, State.eachLink_pending]
  exact ⟨
    hkeeps State.holdTime (fun _ _ _ => rfl) (fun _ _ => rfl) State.advanceSecond_holdTime
      State.fallBack_holdTime,
    hkeeps State.slots (fun _ _ _ => rfl) (fun _ _ => rfl) State.advanceSecond_slots
      State.fallBack_slots,
    hkeeps State.directory (fun _ _ _ => rfl) (fun _ _ => rfl) State.advanceSecond_directory
      State.fallBack_directory,
    hkeeps State.tariff (fun _ _ _ => rfl) (fun _ _ => rfl) State.advanceSecond_tariff
      State.fallBack_tariff,
    hkeeps State.port (fun _ _ _ => rfl) (fun _ _ => rfl) State.advanceSecond_port
      State.fallBack_port,
    hkeeps State.device (fun _ _ _ => rfl) (fun _ _ => rfl) State.advanceSecond_device
      State.fallBack_device,
    hkeeps State.pending (fun _ _ _ => rfl) (fun _ _ => rfl) State.advanceSecond_pending
      State.fallBack_pending⟩

theorem halfSecondLater_mask : (halfSecondLater s).attention.mask = s.attention.mask := by
  rw [halfSecondLater, State.eachLink_attention, presencePassed, State.presenceFold_mask,
    ← State.tickClock_eq]
  exact State.tickClock_keeps (fun t => t.attention.mask) (fun _ _ => rfl)
    State.advanceSecond_mask State.fallBack_mask s

end

/-! ## Off main power and in reset (R42, R188) -/

section
variable {s : State}

theorem State.tick_held (hm : s.device.mainPower = true) (hr : s.device.resetHeld = true) :
    s.tick = clockHalf s := by
  rw [State.tick, if_pos hm, if_pos hr, State.tickClock_eq]

theorem State.tick_outage (hm : s.device.mainPower = false) (hv : s.device.retentionValid = true) :
    s.tick = if s.clock.phaseHalves = 0 then { s with clock := { s.clock with phaseHalves := 1 } }
      else { s with clock :=
        { secondLater s.clock with monotonic := s.clock.monotonic, phaseHalves := 0 } } := by
  rw [State.tick, if_neg (by rw [hm]; exact Bool.false_ne_true), if_pos hv]
  rfl

theorem State.tick_lost (hm : s.device.mainPower = false) (hv : s.device.retentionValid = false) :
    s.tick = s := by
  rw [State.tick, if_neg (by rw [hm]; exact Bool.false_ne_true),
    if_neg (by rw [hv]; exact Bool.false_ne_true)]

end

/-- Settles O50, by the power and the reset pin. -/
theorem halfSecondOnAnEmptyQueue : Obligations.HalfSecondOnAnEmptyQueue := by
  intro s hp
  rw [step_empty hp]
  refine ⟨fun ha => ?awake, fun hm hr => ?held, fun hm hv => ⟨fun h0 => ?phase, fun h0 => ?second⟩,
    fun hm hv => ?lost⟩
  case awake =>
    obtain ⟨hclock, hqueue, hsweep⟩ := halfSecondLater_of_clock s
    obtain ⟨hhold, hslots, hdirectory, htariff, hport, hdevice, hpending⟩ :=
      halfSecondLater_frame s
    refine ⟨halfSecondLater s, congrArg Host.Outcome.next (State.tick_eq_halfSecondLater s ha),
      hclock, hqueue, hsweep, hhold, hslots, hdirectory, htariff, hport, hdevice,
      hpending.trans hp, halfSecondLater_link s, halfSecondLater_channel s, fun p => ?_,
      halfSecondLater_mask s⟩
    rw [halfSecondLater, State.eachLink_attention]
    exact mem_presencePassed s p
  case held => rw [State.tick_held hm hr]
  case phase => rw [State.tick_outage hm hv, if_pos h0]
  case second => rw [State.tick_outage hm hv, if_neg h0]
  case lost => rw [State.tick_lost hm hv]

end Sys2Proof.Machine

/-!
PROOFS. The period lookup (R47, R48): the day program of a date and the point in force in it.
-/

namespace Sys2Proof.Machine

section
variable {holidays : List Date} {d : Date} {p : Schedule}

theorem Schedule.program_holiday (h : d ∈ holidays) : p.program holidays d = p.holiday := if_pos h

theorem Schedule.program_saturday (h : d ∉ holidays) (hd : d.dayOfWeek = .saturday) :
    p.program holidays d = p.saturday := by
  rw [Schedule.program, if_neg h, hd]

theorem Schedule.program_sunday (h : d ∉ holidays) (hd : d.dayOfWeek = .sunday) :
    p.program holidays d = p.sunday := by
  rw [Schedule.program, if_neg h, hd]

theorem Schedule.program_weekday (h : d ∉ holidays) (hsat : d.dayOfWeek ≠ .saturday)
    (hsun : d.dayOfWeek ≠ .sunday) : p.program holidays d = p.weekday := by
  rw [Schedule.program, if_neg h]
  split
  · next hd => exact absurd hd hsat
  · next hd => exact absurd hd hsun
  · rfl

/-- R51: every day program of a sound schedule is sound, whichever governs. -/
theorem Schedule.program_sound {length : Nat} (h : scheduleSound length p = true) :
    programSound length (p.program holidays d) = true := by
  simp only [scheduleSound, Bool.and_eq_true] at h
  obtain ⟨⟨⟨hweekday, hsaturday⟩, hsunday⟩, hholiday⟩ := h
  rw [Schedule.program]
  split
  · exact hholiday
  · split
    · exact hsaturday
    · exact hsunday
    · exact hweekday

end

/-- R48: no point in force means every point is still to come. -/
theorem pointInForce_none {seconds : Nat} : ∀ {l : List SwitchPoint},
    pointInForce seconds l = none → ∀ r ∈ l, ¬60 * r.minute ≤ seconds
  | [], _, _, hr => by cases hr
  | p :: rest, h, r, hr => by
    rw [pointInForce] at h
    cases hrest : pointInForce seconds rest with
    | some q =>
      rw [hrest] at h
      dsimp only at h
      split at h <;> cases h
    | none =>
      rw [hrest] at h
      dsimp only at h
      split at h
      · cases h
      · next hp =>
        rcases List.mem_cons.mp hr with rfl | hr
        · exact hp
        · exact pointInForce_none hrest r hr

/-- R48: the point in force has the greatest minute at or before the time of day. -/
theorem pointInForce_some {seconds : Nat} : ∀ {l : List SwitchPoint} {q : SwitchPoint},
    pointInForce seconds l = some q →
      q ∈ l ∧ 60 * q.minute ≤ seconds ∧ ∀ r ∈ l, 60 * r.minute ≤ seconds → r.minute ≤ q.minute
  | p :: rest, q, h => by
    rw [pointInForce] at h
    cases hrest : pointInForce seconds rest with
    | none =>
      rw [hrest] at h
      dsimp only at h
      split at h
      · next hp =>
        cases h
        refine ⟨List.mem_cons_self .., hp, fun r hr hle => ?_⟩
        rcases List.mem_cons.mp hr with rfl | hr
        · exact le_rfl
        · exact absurd hle (pointInForce_none hrest r hr)
      · cases h
    | some o =>
      obtain ⟨hmem, hbefore, hgreatest⟩ := pointInForce_some hrest
      rw [hrest] at h
      dsimp only at h
      split at h
      · next hp =>
        cases h
        refine ⟨List.mem_cons_self .., hp.1, fun r hr hle => ?_⟩
        rcases List.mem_cons.mp hr with rfl | hr
        · exact le_rfl
        · exact (hgreatest r hr hle).trans hp.2.le
      · next hp =>
        cases h
        refine ⟨List.mem_cons_of_mem _ hmem, hbefore, fun r hr hle => ?_⟩
        rcases List.mem_cons.mp hr with rfl | hr
        · exact Nat.le_of_not_lt fun hlt => hp ⟨hle, hlt⟩
        · exact hgreatest r hr hle

/-- R51: a sound day program has a point at minute 0, so a point is in force at any time of day. -/
theorem pointInForce_of_sound {length seconds : Nat} {l : List SwitchPoint}
    (h : programSound length l = true) : ∃ q, pointInForce seconds l = some q := by
  obtain ⟨-, -, -, -, p, rest, rfl, hp⟩ := (programSound_iff length l).mp h
  refine Option.ne_none_iff_exists'.mp fun hn => ?_
  refine pointInForce_none hn p (List.mem_cons_self ..) ?_
  rw [hp]
  exact Nat.zero_le _

theorem State.lookupPeriod_loaded {schedule : Byte} {s : State} {p : Schedule}
    (h : s.scheduleSlot schedule.toNat = some (some p)) (t : CalTime) :
    s.lookupPeriod schedule t =
      periodOf (pointInForce t.timeOfDay (p.program s.tariff.holidays t.date)) := by
  rw [State.lookupPeriod, h]

/-- Settles O20: the day by cases, the point by induction on the program. -/
theorem periodLookupFindsThePointInForce : Obligations.PeriodLookupFindsThePointInForce := by
  refine ⟨fun holidays d p => ⟨Schedule.program_holiday, fun h =>
    ⟨Schedule.program_saturday h, Schedule.program_sunday h, Schedule.program_weekday h⟩⟩,
    fun length schedule t s p hslot hsound => ?_⟩
  obtain ⟨q, hq⟩ := pointInForce_of_sound (seconds := t.timeOfDay)
    (Schedule.program_sound (holidays := s.tariff.holidays) (d := t.date) hsound)
  obtain ⟨hmem, hbefore, hgreatest⟩ := pointInForce_some hq
  refine ⟨q, hmem, ?_, hbefore, hgreatest⟩
  rw [State.lookupPeriod_loaded hslot, hq]
  rfl

end Sys2Proof.Machine

/-!
PROOFS. LOAD SCHEDULE and LOAD HOLIDAYS (R51 to R54): the bytes carried and what is read from them, the
first fault in the order of the checks, and the tariff table replaced whole.
-/

namespace Sys2Proof.Machine

/-! ## The bytes of a day program (R51) -/

/-- A switch point as the model reads the three bytes that carry it. -/
def rawPoint (p : Half × Byte) : RawPoint := ⟨p.1.toNat, p.2.toNat⟩

/-- The bytes of the points of a day program, without their count. -/
def pointBytes (points : List (Half × Byte)) : List Byte :=
  points.flatMap fun p => halfBytes p.1 ++ [p.2]

theorem carriedProgram_eq (points : List (Half × Byte)) :
    carriedProgram points = u8 points.length :: pointBytes points := rfl

theorem pointBytes_cons (p : Half × Byte) (points : List (Half × Byte)) :
    pointBytes (p :: points) =
      p.1.extractLsb' 8 8 :: p.1.extractLsb' 0 8 :: p.2 :: pointBytes points := rfl

theorem length_pointBytes : ∀ points : List (Half × Byte),
    (pointBytes points).length = 3 * points.length
  | [] => rfl
  | p :: points => by
    rw [pointBytes_cons, List.length_cons, List.length_cons, List.length_cons,
      length_pointBytes points, List.length_cons]
    omega

theorem rawPoints_carried (rest : List Byte) : ∀ points : List (Half × Byte),
    rawPoints points.length (pointBytes points ++ rest) = points.map rawPoint
  | [] => by rw [List.length_nil, rawPoints]; rfl; exact nofun
  | p :: points => by
    rw [pointBytes_cons, List.length_cons, List.cons_append, List.cons_append, List.cons_append,
      rawPoints, rawPoints_carried rest points, halfOf_halfBytes]
    rfl

theorem halfBytes_halfOf (a b : Byte) : halfBytes (halfOf a b) = [a, b] := by
  rw [halfBytes, halfOf, BitVec.extractLsb'_append_eq_left, BitVec.extractLsb'_append_eq_right]

/-- Bytes enough for `n` points carry `n` points. -/
theorem exists_points : ∀ (n : Nat) (bytes : List Byte), 3 * n ≤ bytes.length →
    ∃ points : List (Half × Byte), points.length = n ∧
      bytes = pointBytes points ++ bytes.drop (3 * n)
  | 0, _, _ => ⟨[], rfl, rfl⟩
  | n + 1, a :: b :: c :: rest, h => by
    obtain ⟨points, hlen, hrest⟩ := exists_points n rest (by simp at h; omega)
    refine ⟨(halfOf a b, c) :: points, by rw [List.length_cons, hlen], ?_⟩
    have hhead : pointBytes ((halfOf a b, c) :: points) = a :: b :: c :: pointBytes points := by
      rw [pointBytes, List.flatMap_cons, halfBytes_halfOf]
      rfl
    rw [hhead, show 3 * (n + 1) = 3 * n + 3 by omega]
    simpa using hrest
  | n + 1, [], h => by simp at h
  | n + 1, [_], h => by simp at h; omega
  | n + 1, [_, _], h => by simp at h; omega

theorem rawPrograms_carried : ∀ programs : List (List (Half × Byte)),
    (∀ points ∈ programs, points.length ≤ 255) →
    rawPrograms programs.length (programs.flatMap carriedProgram) =
      some (programs.map (List.map rawPoint))
  | [], _ => rfl
  | points :: programs, h => by
    have hcount := toNat_u8 (h points (List.mem_cons_self ..))
    have hlen := length_pointBytes points
    have hrest := rawPrograms_carried programs fun q hq => h q (List.mem_cons_of_mem _ hq)
    rw [List.flatMap_cons, carriedProgram_eq, List.cons_append, List.length_cons, rawPrograms,
      hcount, if_neg (by rw [List.length_append]; omega), ← hlen, List.drop_left, hrest,
      rawPoints_carried]
    rfl

/-- R51 step 1: bytes that split into day programs carry them. -/
theorem exists_programs : ∀ {n : Nat} {bytes : List Byte} {raw : List (List RawPoint)},
    rawPrograms n bytes = some raw → ∃ programs : List (List (Half × Byte)),
      programs.length = n ∧ (∀ points ∈ programs, points.length ≤ 255) ∧
        bytes = programs.flatMap carriedProgram
  | 0, [], _, _ => ⟨[], rfl, nofun, rfl⟩
  | 0, _ :: _, _, h => by cases h
  | _ + 1, [], _, h => by cases h
  | n + 1, count :: rest, raw, h => by
    rw [rawPrograms] at h
    split at h
    · cases h
    · next hle =>
      obtain ⟨tail, htail, -⟩ := Option.map_eq_some_iff.mp h
      obtain ⟨programs, hlen, hshort, hbytes⟩ := exists_programs htail
      obtain ⟨points, hcount, hpoints⟩ := exists_points count.toNat rest (by omega)
      have hu8 : u8 points.length = count := by
        rw [hcount, u8, BitVec.ofNat_toNat, BitVec.setWidth_eq]
      have hcount' : points.length ≤ 255 := by
        have := count.isLt
        omega
      refine ⟨points :: programs, by rw [List.length_cons, hlen],
        List.forall_mem_cons.mpr ⟨hcount', hshort⟩, ?_⟩
      rw [List.flatMap_cons, carriedProgram_eq, hu8, ← hbytes, List.cons_append, ← hpoints]

/-! ## The first fault (R51 step 2) -/

section
variable {length : Nat}

theorem badAttribute_first : ∀ {l : List Byte} {k i : Nat} (hi : i < l.length),
    (∀ j (hj : j < i), l[j] = 0 ∨ l[j] = 1) → ¬(l[i] = 0 ∨ l[i] = 1) →
    badAttribute k l = some ⟨0, u8 ((k + i) / 2), u8 ((k + i) % 2 + 1)⟩
  | a :: rest, k, 0, _, _, h => if_neg h
  | a :: rest, k, i + 1, hi, hpass, h => by
    have hhead : a = 0 ∨ a = 1 := hpass 0 (Nat.succ_pos i)
    rw [badAttribute, if_pos hhead, badAttribute_first (i := i)
      (Nat.lt_of_succ_lt_succ hi) (fun j hj => hpass (j + 1) (Nat.succ_lt_succ hj)) h,
      show k + 1 + i = k + (i + 1) by omega]

theorem badAttribute_none : ∀ {l : List Byte} {k : Nat}, (∀ a ∈ l, a = 0 ∨ a = 1) →
    badAttribute k l = none
  | [], _, _ => rfl
  | a :: rest, k, h => by
    rw [badAttribute, if_pos (h a (List.mem_cons_self ..))]
    exact badAttribute_none fun b hb => h b (List.mem_cons_of_mem _ hb)

theorem badPrograms_first : ∀ {l : List (List RawPoint)} {k d position : Nat} (hd : d < l.length),
    (∀ c (hc : c < d), badProgram length l[c] = none) → badProgram length l[d] = some position →
    badPrograms length k l = some ⟨1, u8 (k + d), u8 position⟩
  | a :: rest, k, 0, _, _, _, h => by
    rw [badPrograms, show badProgram length a = _ from h]
    rfl
  | a :: rest, k, d + 1, _, hd, hpass, h => by
    rw [badPrograms, show badProgram length a = none from hpass 0 (Nat.succ_pos d)]
    dsimp only
    rw [badPrograms_first (d := d) (Nat.lt_of_succ_lt_succ hd)
      (fun c hc => hpass (c + 1) (Nat.succ_lt_succ hc)) h, show k + 1 + d = k + (d + 1) by omega]

theorem badPrograms_all_pass : ∀ {l : List (List RawPoint)} {k : Nat},
    (∀ a ∈ l, badProgram length a = none) → badPrograms length k l = none
  | [], _, _ => rfl
  | a :: rest, k, h => by
    rw [badPrograms, h a (List.mem_cons_self ..)]
    exact badPrograms_all_pass fun b hb => h b (List.mem_cons_of_mem _ hb)

/-- The minute a point has to rise above: none for the first. -/
def minuteBefore (points : List (Half × Byte)) : Nat → Option Nat
  | 0 => none
  | i + 1 => points[i]?.map fun p => p.1.toNat

/-- R51: a first point stands at minute 0, a later one above the minute before. -/
def follows (previous : Option Nat) (minute : Nat) : Bool :=
  match previous with
  | none => minute == 0
  | some m => decide (m < minute)

/-- R51 step 2 on a point, given the minute before it. -/
def pointFits (length : Nat) (previous : Option Nat) (p : RawPoint) : Prop :=
  follows previous p.minute = true ∧ p.minute ≤ 1439 ∧ p.period ≤ 3 ∧ 60 * p.minute % length = 0

theorem badPoint_fits {position : Nat} {previous : Option Nat} {p : RawPoint}
    {rest : List RawPoint} (h : pointFits length previous p) :
    badPoint length position previous (p :: rest) =
      badPoint length (position + 1) (some p.minute) rest := by
  cases previous <;> exact if_pos h

theorem badPoint_fails {position : Nat} {previous : Option Nat} {p : RawPoint}
    {rest : List RawPoint} (h : ¬pointFits length previous p) :
    badPoint length position previous (p :: rest) = some position := by
  cases previous <;> exact if_neg h

variable {points : List (Half × Byte)}

theorem minuteBefore_succ {i : Nat} (hi : i < points.length) :
    minuteBefore points (i + 1) = some points[i].1.toNat := by
  rw [minuteBefore, List.getElem?_eq_getElem hi]
  rfl

theorem follows_first (minute : Half) : follows none minute.toNat = true ↔ minute = 0 := by
  rw [follows, beq_iff_eq]
  exact BitVec.toNat_inj (y := 0)

theorem pointPasses_iff {i : Nat} (hi : i < points.length) :
    pointPasses length points ⟨i, hi⟩ ↔
      pointFits length (minuteBefore points i) (rawPoint points[i]) := by
  rw [pointPasses, pointFits, ← and_assoc]
  refine and_congr_left' ?_
  cases i with
  | zero =>
    refine Iff.trans ⟨fun h => h.1 rfl, fun h => ⟨fun _ => h, fun j hj => ?_⟩⟩
      (follows_first points[0].1).symm
    cases hj
  | succ i =>
    have hi' : i < points.length := Nat.lt_of_succ_lt hi
    rw [minuteBefore_succ hi', follows, decide_eq_true_eq]
    refine ⟨fun h => h.2 ⟨i, hi'⟩ rfl, fun h => ⟨(by cases ·), fun ⟨j, _⟩ hj => ?_⟩⟩
    obtain rfl : j = i := Nat.succ.inj hj
    exact h

/-- R51: the search comes to the point at `i` once the points before it pass. -/
theorem badPoint_reaches : ∀ i : Nat, i ≤ points.length →
    (∀ j : Fin points.length, j.val < i → pointPasses length points j) →
    badPoint length 1 none (points.map rawPoint) =
      badPoint length (i + 1) (minuteBefore points i) ((points.drop i).map rawPoint)
  | 0, _, _ => rfl
  | i + 1, hi, h => by
    have hfits := (pointPasses_iff hi).mp (h ⟨i, hi⟩ (Nat.lt_succ_self i))
    rw [badPoint_reaches i (by omega) fun j hj => h j (by omega),
      List.drop_eq_getElem_cons hi, List.map_cons, badPoint_fits hfits,
      minuteBefore_succ hi]
    rfl

theorem badProgram_count (h : points.length = 0 ∨ 8 < points.length) :
    badProgram length (points.map rawPoint) = some 0 := by
  rw [badProgram, if_pos (by rwa [List.length_map])]

theorem badProgram_counted (h1 : 1 ≤ points.length) (h8 : points.length ≤ 8) :
    badProgram length (points.map rawPoint) = badPoint length 1 none (points.map rawPoint) := by
  rw [badProgram, if_neg (by rw [List.length_map]; omega)]

theorem badProgram_point {i : Fin points.length} (h8 : points.length ≤ 8)
    (hpass : ∀ j, j < i → pointPasses length points j) (h : ¬pointPasses length points i) :
    badProgram length (points.map rawPoint) = some (i.val + 1) := by
  obtain ⟨i, hi⟩ := i
  rw [pointPasses_iff] at h
  rw [badProgram_counted (by omega) h8, badPoint_reaches i hi.le hpass,
    List.drop_eq_getElem_cons hi, List.map_cons, badPoint_fails h]

theorem badProgram_passes (h : programPasses length points) :
    badProgram length (points.map rawPoint) = none := by
  obtain ⟨h1, h8, hpass⟩ := h
  rw [badProgram_counted h1 h8, badPoint_reaches points.length le_rfl fun j _ => hpass j,
    List.drop_length, List.map_nil, badPoint]

end

end Sys2Proof.Machine

/-!
PROOFS. LOAD SCHEDULE and LOAD HOLIDAYS as commands (R51 to R54): the outcome of the checks on the bytes
carried, and the tariff table replaced whole.
-/

namespace Sys2Proof.Machine

/-! ## The checks of LOAD SCHEDULE (R51) -/

theorem badAttribute_carried {attributes : Vector Byte 8}
    (h : ∀ i : Fin 8, attributes[i] = 0 ∨ attributes[i] = 1) :
    badAttribute 0 attributes.toList = none :=
  badAttribute_none fun a ha => by
    obtain ⟨i, hi, rfl⟩ := List.getElem_of_mem ha
    exact h ⟨i, by rwa [Vector.length_toList] at hi⟩

section
variable {length : Nat} {slot : Byte} {attributes : Vector Byte 8}
variable {programs : Vector (List (Half × Byte)) 4}

/-- R51 step 1: bytes that are no schedule are refused. -/
theorem checkSchedule_badOperand {body : List Byte} (h : 7 < slot.toNat ∨
    ∀ (attributes : Vector Byte 8) (programs : Vector (List (Half × Byte)) 4),
      (∀ d : Fin 4, programs[d].length ≤ 255) → body ≠ carriedSchedule attributes programs) :
    checkSchedule length slot body = .badOperand := by
  rw [checkSchedule]
  by_cases hslot : slot.toNat < 8
  · have hbody := h.resolve_left (by omega)
    rw [dif_pos hslot]
    cases hraw : rawPrograms 4 (body.drop 8) with
    | none => rfl
    | some raw =>
      obtain ⟨carried, hfour, hshort, hbytes⟩ := exists_programs hraw
      have height : (body.take 8).length = 8 := by
        have hne : body.drop 8 ≠ [] := by
          rintro hnil
          rw [hnil] at hraw
          cases hraw
        have := List.length_pos_iff.mpr hne
        rw [List.length_drop] at this
        rw [List.length_take]
        omega
      refine absurd ?_ (hbody ⟨(body.take 8).toArray, height⟩ ⟨carried.toArray, hfour⟩
        fun d => hshort _ (List.getElem_mem (by rw [hfour]; exact d.isLt)))
      exact (List.take_append_drop 8 body).symm.trans (congrArg (body.take 8 ++ ·) hbytes)
  · rw [dif_neg hslot]

theorem take_carriedSchedule :
    (carriedSchedule attributes programs).take 8 = attributes.toList :=
  List.take_left' attributes.length_toList

theorem rawPrograms_carriedSchedule (h : ∀ d : Fin 4, programs[d].length ≤ 255) :
    rawPrograms 4 ((carriedSchedule attributes programs).drop 8) =
      some (programs.toList.map (List.map rawPoint)) := by
  have hdrop : (carriedSchedule attributes programs).drop 8 =
      programs.toList.flatMap carriedProgram := List.drop_left' attributes.length_toList
  have hcarried := rawPrograms_carried programs.toList fun points hp => by
    obtain ⟨d, hd, rfl⟩ := List.getElem_of_mem hp
    exact h ⟨d, by rwa [Vector.length_toList] at hd⟩
  rw [Vector.length_toList] at hcarried
  rw [hdrop, hcarried]

variable {f : ScheduleFailure} (hslot : slot.toNat < 8)
variable (hshort : ∀ d : Fin 4, programs[d].length ≤ 255)
include hslot hshort

theorem checkSchedule_badAttribute (h : badAttribute 0 attributes.toList = some f) :
    checkSchedule length slot (carriedSchedule attributes programs) = .badSchedule f := by
  rw [checkSchedule, dif_pos hslot, rawPrograms_carriedSchedule hshort, take_carriedSchedule, h]

variable (hattributes : ∀ i : Fin 8, attributes[i] = 0 ∨ attributes[i] = 1)
include hattributes

theorem checkSchedule_badProgram
    (h : badPrograms length 0 (programs.toList.map (List.map rawPoint)) = some f) :
    checkSchedule length slot (carriedSchedule attributes programs) = .badSchedule f := by
  rw [checkSchedule, dif_pos hslot, rawPrograms_carriedSchedule hshort, take_carriedSchedule,
    badAttribute_carried hattributes]
  dsimp only
  rw [h]

theorem checkSchedule_passes
    (h : badPrograms length 0 (programs.toList.map (List.map rawPoint)) = none) :
    checkSchedule length slot (carriedSchedule attributes programs) =
      .schedule ⟨slot.toNat, hslot⟩
        (storedSchedule attributes.toList (programs.toList.map (List.map rawPoint))) := by
  rw [checkSchedule, dif_pos hslot, rawPrograms_carriedSchedule hshort, take_carriedSchedule,
    badAttribute_carried hattributes]
  dsimp only
  rw [h]

/-- R51 step 2: the first day program at fault is named with the position of its fault. -/
theorem checkSchedule_first {d : Fin 4} {position : Nat}
    (hpass : ∀ c : Fin 4, c < d → programPasses length programs[c])
    (h : badProgram length (programs[d].map rawPoint) = some position) :
    checkSchedule length slot (carriedSchedule attributes programs) =
      .badSchedule ⟨1, u8 d.val, u8 position⟩ := by
  refine checkSchedule_badProgram hslot hshort hattributes ?_
  have hlen : (programs.toList.map (List.map rawPoint)).length = 4 := by simp
  have hget (c : Nat) (hc : c < 4) :
      (programs.toList.map (List.map rawPoint))[c]'(by rw [hlen]; exact hc) =
        programs[c].map rawPoint := by simp
  have hfirst := badPrograms_first (length := length) (k := 0) (position := position)
    (l := programs.toList.map (List.map rawPoint)) (d := d.val) (by rw [hlen]; exact d.isLt)
    (fun c hc => by
      rw [hget c (by omega)]
      exact badProgram_passes (hpass ⟨c, by omega⟩ hc))
    (by rw [hget d.val d.isLt]; exact h)
  rwa [Nat.zero_add] at hfirst

end

section
variable {attributes : Vector Byte 8} {programs : Vector (List (Half × Byte)) 4}

/-- The first of the eight bytes at fault is named by its period and its place. -/
theorem badAttribute_carried_first {i : Fin 8}
    (hpass : ∀ j : Fin 8, j < i → attributes[j] = 0 ∨ attributes[j] = 1)
    (h : ¬(attributes[i] = 0 ∨ attributes[i] = 1)) :
    badAttribute 0 attributes.toList = some ⟨0, u8 (i.val / 2), u8 (i.val % 2 + 1)⟩ := by
  have hlen := attributes.length_toList
  have hfirst := badAttribute_first (l := attributes.toList) (k := 0) (i := i.val)
    (by rw [hlen]; exact i.isLt) (fun j hj => hpass ⟨j, by omega⟩ hj) h
  rwa [Nat.zero_add] at hfirst

theorem badPrograms_carried {length : Nat}
    (h : ∀ d : Fin 4, programPasses length programs[d]) :
    badPrograms length 0 (programs.toList.map (List.map rawPoint)) = none := by
  refine badPrograms_all_pass fun a ha => ?_
  obtain ⟨points, hp, rfl⟩ := List.mem_map.mp ha
  obtain ⟨d, hd, rfl⟩ := List.getElem_of_mem hp
  exact badProgram_passes (h ⟨d, by rwa [Vector.length_toList] at hd⟩)

theorem storedProgram_carried (d : Fin 4) :
    storedProgram (programs.toList.map (List.map rawPoint)) d = programCarried programs[d] := by
  have hget : (programs.toList.map (List.map rawPoint)).getD d [] = programs[d].map rawPoint := by
    simp
  rw [storedProgram, hget, List.map_map]
  rfl

/-- R52: the schedule stored is the one carried. -/
theorem storedSchedule_carried :
    storedSchedule attributes.toList (programs.toList.map (List.map rawPoint)) =
      scheduleCarried attributes programs := by
  have hget (j : Nat) (hj : j < 8) : attributes.toList.getD j 0 = attributes[j] := by simp [hj]
  rw [storedSchedule, scheduleCarried]
  congr 1
  · exact congrArg Vector.ofFn (funext fun k => by rw [hget _ (by omega), hget _ (by omega)])
  · exact storedProgram_carried 0
  · exact storedProgram_carried 1
  · exact storedProgram_carried 2
  · exact storedProgram_carried 3

end

/-! ## LOAD SCHEDULE (R51, R52) -/

section
variable {slot : Byte} {body : List Byte} {s : State}

theorem actLoadSchedule_badOperand (h : checkSchedule s.clock.subinterval slot body = .badOperand) :
    actLoadSchedule slot body s = (s, ⟨.badOperand, []⟩) := by
  rw [actLoadSchedule, h]
  rfl

theorem actLoadSchedule_badSchedule {f : ScheduleFailure}
    (h : checkSchedule s.clock.subinterval slot body = .badSchedule f) :
    actLoadSchedule slot body s = (s, ⟨.badSchedule, [f.part, f.index, f.position]⟩) := by
  rw [actLoadSchedule, h]

variable {k : Fin 8} {p : Schedule}

theorem actLoadSchedule_sweeping (h : checkSchedule s.clock.subinterval slot body = .schedule k p)
    (hr : s.sweep.running = true) :
    actLoadSchedule slot body s = (s, ⟨.sweepActive, []⟩) := by
  rw [actLoadSchedule, h]
  exact if_pos hr

theorem actLoadSchedule_stored (h : checkSchedule s.clock.subinterval slot body = .schedule k p)
    (hr : s.sweep.running = false) : actLoadSchedule slot body s =
      ({ s with tariff := { s.tariff with schedules := s.tariff.schedules.set k (some p) } },
        ⟨.ok, [flagByte s.tariff.schedules[k].isSome]⟩) := by
  rw [actLoadSchedule, h]
  exact if_neg (by rw [hr]; exact Bool.false_ne_true)

end

/-! ## LOAD HOLIDAYS (R53) -/

theorem rawDates_carried : ∀ dates : List (Byte × Byte × Byte),
    rawDates (dates.flatMap fun d => [d.1, d.2.1, d.2.2]) = some (dates.map dateCarried)
  | [] => rfl
  | d :: dates => by
    show rawDates (d.1 :: d.2.1 :: d.2.2 :: dates.flatMap fun d => [d.1, d.2.1, d.2.2]) = _
    rw [rawDates, rawDates_carried dates]
    rfl

theorem length_rawDates : ∀ {body : List Byte} {dates : List Date},
    rawDates body = some dates → body.length = 3 * dates.length
  | [], _, h => by cases h; rfl
  | [_], _, h => by cases h
  | [_, _], _, h => by cases h
  | a :: b :: c :: rest, dates, h => by
    rw [rawDates] at h
    obtain ⟨tail, htail, rfl⟩ := Option.map_eq_some_iff.mp h
    simp only [List.length_cons]
    have := length_rawDates htail
    omega

theorem checkHolidays_none {count : Byte} {body : List Byte}
    (h : 24 < count.toNat ∨ body.length ≠ 3 * count.toNat) : checkHolidays count body = none := by
  rw [checkHolidays]
  by_cases h24 : 24 < count.toNat
  · exact if_pos h24
  · rw [if_neg h24]
    cases hraw : rawDates body with
    | none => rfl
    | some dates =>
      have hlen := length_rawDates hraw
      exact if_neg fun hd => h.resolve_left h24 (by rw [hlen, hd.1])

section
variable {count : Byte} {dates : List (Byte × Byte × Byte)}

theorem datesPass_iff : datesPass dates ↔ (dates.map dateCarried).all Date.valid = true ∧
    datesAscend (dates.map dateCarried) = true := by
  rw [datesPass, datesAscend_iff_pairwise, List.all_map, List.all_eq_true]
  rfl

variable (h24 : count.toNat ≤ 24)
include h24

/-- R53 step 1: the dates carried are taken where they pass. -/
theorem checkHolidays_passes (hlen : dates.length = count.toNat) (h : datesPass dates) :
    checkHolidays count (dates.flatMap fun d => [d.1, d.2.1, d.2.2]) =
      some (dates.map dateCarried) := by
  rw [checkHolidays, if_neg (Nat.not_lt.mpr h24), rawDates_carried]
  exact if_pos ⟨by rw [List.length_map, hlen], datesPass_iff.mp h⟩

theorem checkHolidays_fails (h : ¬datesPass dates) :
    checkHolidays count (dates.flatMap fun d => [d.1, d.2.1, d.2.2]) = none := by
  rw [checkHolidays, if_neg (Nat.not_lt.mpr h24), rawDates_carried]
  exact if_neg fun hd => h (datesPass_iff.mpr hd.2)

end

section
variable {count : Byte} {body : List Byte} {s : State} {dates : List Date}

theorem actLoadHolidays_badOperand (h : checkHolidays count body = none) :
    actLoadHolidays count body s = (s, ⟨.badOperand, []⟩) := by
  rw [actLoadHolidays, h]
  rfl

theorem actLoadHolidays_sweeping (h : checkHolidays count body = some dates)
    (hr : s.sweep.running = true) :
    actLoadHolidays count body s = (s, ⟨.sweepActive, []⟩) := by
  rw [actLoadHolidays, h]
  exact if_pos hr

theorem actLoadHolidays_stored (h : checkHolidays count body = some dates)
    (hr : s.sweep.running = false) : actLoadHolidays count body s =
      ({ s with tariff := { s.tariff with holidays := dates } }, ⟨.ok, []⟩) := by
  rw [actLoadHolidays, h]
  exact if_neg (by rw [hr]; exact Bool.false_ne_true)

end

/-- Settles O17: what the checks find in the bytes carried, and what the commands make of it. -/
theorem loadsReplaceTheTariffWhole : Obligations.LoadsReplaceTheTariffWhole := by
  refine ⟨fun slot body s ha => ?schedule, fun count body s ha => ?holidays⟩
  case schedule =>
    have hexec {r : State × Response} (hr : actLoadSchedule slot body s = r) :
        exec (.loadSchedule slot body) s = .next (answer r) :=
      exec_of_accepts (act := actLoadSchedule slot body) rfl ha hr
    refine ⟨fun h => hexec (actLoadSchedule_badOperand (checkSchedule_badOperand h)),
      fun k attributes programs hk hbody hshort => ?_⟩
    have hslot : slot.toNat < 8 := hk ▸ k.isLt
    obtain rfl : ⟨slot.toNat, hslot⟩ = k := Fin.ext hk
    subst hbody
    refine ⟨fun i hpass h => hexec (actLoadSchedule_badSchedule
        (checkSchedule_badAttribute hslot hshort (badAttribute_carried_first hpass h))),
      fun hattributes => ⟨fun d hpass => ⟨fun h => hexec (actLoadSchedule_badSchedule
          (checkSchedule_first hslot hshort hattributes hpass (badProgram_count h))),
        fun i h8 hpoints h => hexec (actLoadSchedule_badSchedule
          (checkSchedule_first hslot hshort hattributes hpass (badProgram_point h8 hpoints h)))⟩,
      fun hpass => ?_⟩⟩
    have hcheck := checkSchedule_passes hslot hshort hattributes (badPrograms_carried hpass)
    rw [storedSchedule_carried] at hcheck
    exact ⟨fun hr => hexec (actLoadSchedule_sweeping hcheck hr),
      fun hr => hexec (actLoadSchedule_stored hcheck hr)⟩
  case holidays =>
    have hexec {r : State × Response} (hr : actLoadHolidays count body s = r) :
        exec (.loadHolidays count body) s = .next (answer r) :=
      exec_of_accepts (act := actLoadHolidays count body) rfl ha hr
    refine ⟨fun h => hexec (actLoadHolidays_badOperand (checkHolidays_none h)),
      fun dates h24 hlen hbody => ?_⟩
    subst hbody
    exact ⟨fun h => hexec (actLoadHolidays_badOperand (checkHolidays_fails h24 h)),
      fun h => ⟨fun hr => hexec (actLoadHolidays_sweeping (checkHolidays_passes h24 hlen h) hr),
        fun hr => hexec (actLoadHolidays_stored (checkHolidays_passes h24 hlen h) hr)⟩⟩

end Sys2Proof.Machine
